-- ==== Sys2Proof/Word.lean ====
section
/-! DEFINITION. The word and index types of the LC24 model and their plainest arithmetic. -/

namespace Sys2Proof

/-- One character of a message (8 data bits). -/
abbrev Byte := BitVec 8
/-- An article code (R2). -/
abbrev Article := BitVec 48
/-- A store time or stamp, in ticks (R173). -/
abbrev Stamp := BitVec 32
/-- A transaction number, 16 bits, wrapping (R10). -/
abbrev TxnNo := BitVec 16
/-- A badge number (R81). -/
abbrev BadgeNo := BitVec 16
/-- A lane frame sequence number, counted modulo 8 (R139). -/
abbrev Seq := BitVec 3
/-- A directive generation, counted modulo 8 (R45). -/
abbrev Gen := BitVec 3
/-- A set of lanes: bit `l` stands for lane `l` (R116, 11.2). -/
abbrev LaneSet := BitVec 24
/-- A set of consoles: bit `c` stands for console `c` (R50). -/
abbrev ConsoleSet := BitVec 4
/-- A set of reasons: bit `n` stands for reason code `n` (R194). -/
abbrev ReasonSet := BitVec 10
/-- A set of annotations: bit `n` stands for annotation `n` (R163, 11.3). -/
abbrev AnnoSet := BitVec 10
/-- The 12 bits of one lane line character, bit 0 (the start bit) first on the line (R118). -/
abbrev LineChar := BitVec 12

/-- Lanes 0 to 23. -/
abbrev LaneIx := Fin 24
/-- Lane lines 0 to 3. -/
abbrev LineIx := Fin 4
/-- Drops 0 to 5 of a line. -/
abbrev DropIx := Fin 6
/-- Consoles 0 to 3. -/
abbrev ConsoleIx := Fin 4
/-- Record slots 0 to 47. -/
abbrev SlotIx := Fin 48
/-- The 64 frame buffers (R150); the number is the model's own. -/
abbrev BufId := Fin 64
/-- The three traffic channels: index `c` is channel `c + 1` (R159). -/
abbrev ChanIx := Fin 3

/-- A timer: stopped, or running with a remaining count; a count of 0 is an expiry that is due and
has not been taken yet (R174, log 3). -/
abbrev Timer := Option Nat

/-- A counter of events (16 bits, saturating; R1 and others). -/
abbrev Counter := Nat

/-- `xs` with the entry at `i` replaced. -/
def upd {α : Type} {n : Nat} (xs : Vector α n) (i : Fin n) (a : α) : Vector α n :=
  xs.set i.1 a i.2

/-- All lanes, in ascending order. -/
def allLanes : List LaneIx := List.finRange 24
/-- All record slots, in ascending order. -/
def allSlots : List SlotIx := List.finRange 48
/-- All consoles, in ascending order. -/
def allConsoles : List ConsoleIx := List.finRange 4
/-- All lines, in ascending order. -/
def allLines : List LineIx := List.finRange 4
/-- All drops, in ascending order. -/
def allDrops : List DropIx := List.finRange 6
/-- All traffic channels, in ascending order. -/
def allChans : List ChanIx := List.finRange 3

end Sys2Proof
end

