-- ==== Sys2Proof/Syntax.lean ====
section
/-! DEFINITION. The commands of the LC24: one constructor for each row of spec/opcode_table.json. -/

namespace Sys2Proof

/-- A received lane line character as the receiver samples it: samples 7, 8 and 9 of each of its 12
bits, the start bit in bit 0 (R118). -/
structure RxChar where
  s7 : BitVec 12
  s8 : BitVec 12
  s9 : BitVec 12
deriving DecidableEq, Repr

/-- One entry of a LOAD GROUPS request, by its characters (11.2, R107). -/
structure GroupWrite where
  code  : BitVec 16
  flags : Byte
  tol   : Byte
deriving DecidableEq, Repr

/-- One entry of a LOAD WATCH request, by its characters (11.2, R108). -/
structure WatchWrite where
  article : Article
  flags   : Byte
  tol     : Byte
deriving DecidableEq, Repr

/-- The commands. A request carries its tag and the characters of its content in the widths of
section 11.2; a request stands for its whole message (log 9). -/
inductive Instr where
  /-- POWER_ON: power-on, with the RESET pin low or not (R191). -/
  | powerOn (resetLow : Bool)
  /-- RESET_PIN_LOW (R191). -/
  | resetPinLow
  /-- RESET_PIN_HIGH (R191). -/
  | resetPinHigh
  /-- TICK, with the LINK_OK sample of that tick (R172, R156). -/
  | tick (linkOk : Bool)
  /-- LINK_DOWN (R168). -/
  | linkDown
  /-- LINK_UP (R169). -/
  | linkUp
  /-- CALL_INPUT_SAMPLE: the samples of the 24 call inputs on one tick, bit `l` for lane `l` (R136). -/
  | callInputSample (levels : LaneSet)
  /-- SKIPPED_CHARACTER (R157). -/
  | skippedCharacter
  /-- BAD_LENGTH (R157). -/
  | badLength
  /-- TRUNCATED (R157). -/
  | truncated
  /-- BAD_CHECK (R157). -/
  | badCheck
  /-- WRONG_CHANNEL (R157). -/
  | wrongChannel
  /-- LOST_REQUEST (R179). -/
  | lostRequest
  /-- UNKNOWN_REQUEST: a request of an unknown kind or a wrong length (R180). -/
  | unknownRequest (tag : Byte) (kind : BitVec 6) (content : List Byte)
  /-- CREDIT (R161). -/
  | credit (tag channel count : Byte)
  /-- CHANNEL_SET_ENABLE: CHANNEL SET whose enable character is not 0 (R160, log 11). -/
  | channelSetEnable (tag channel enable : Byte)
  /-- CHANNEL_SET_DISABLE: CHANNEL SET whose enable character is 0 (R160). -/
  | channelSetDisable (tag channel : Byte)
  /-- MAP_SET (R162). -/
  | mapSet (tag kind channel : Byte)
  /-- LOAD_BEGIN (R105). -/
  | loadBegin (tag bank : Byte) (groups : BitVec 16) (watch : Byte)
  /-- LOAD_GROUPS (R107). -/
  | loadGroups (tag bank : Byte) (entries : List GroupWrite)
  /-- LOAD_WATCH (R108). -/
  | loadWatch (tag bank : Byte) (entries : List WatchWrite)
  /-- LOAD_END (R109). -/
  | loadEnd (tag bank : Byte)
  /-- LOAD_ABORT (R110). -/
  | loadAbort (tag bank : Byte)
  /-- COMMIT (R111). -/
  | commit (tag bank : Byte)
  /-- BADGE_SET (R114). -/
  | badgeSet (tag : Byte) (badge : BadgeNo) (level : Byte)
  /-- BADGE_CLEAR: BADGE CLEAR whose mode character is not 1 (R115, log 11). -/
  | badgeClear (tag mode : Byte) (badge : BadgeNo)
  /-- BADGE_CLEAR_ALL: BADGE CLEAR whose mode character is 1 (R115). -/
  | badgeClearAll (tag : Byte) (badge : BadgeNo)
  /-- ZONE_SET (R116). -/
  | zoneSet (tag console : Byte) (lanes : LaneSet)
  /-- LANE_OPEN (R5). -/
  | laneOpen (tag lane : Byte)
  /-- LANE_CLOSE: LANE CLOSE whose FORCE character is not 1 (R6, log 11). -/
  | laneClose (tag lane force : Byte)
  /-- LANE_CLOSE_FORCE: LANE CLOSE whose FORCE character is 1 (R7). -/
  | laneCloseForce (tag lane : Byte)
  /-- LANE_RESET (R8). -/
  | laneReset (tag lane : Byte)
  /-- INPUT_SET (R136). -/
  | inputSet (tag lane enable edge : Byte)
  /-- LINE_QUIET (R133). -/
  | lineQuiet (tag line : Byte)
  /-- LINE_WAKE (R134). -/
  | lineWake (tag line : Byte)
  /-- CONSOLE_ON (R73). -/
  | consoleOn (tag console : Byte)
  /-- CONSOLE_OFF (R74). -/
  | consoleOff (tag console : Byte)
  /-- CLAIM (R67, R68). -/
  | claim (tag console slot issue : Byte)
  /-- DECLINE (R69). -/
  | decline (tag console slot issue : Byte)
  /-- RELEASE (R70). -/
  | release (tag console slot issue : Byte)
  /-- RESOLVE_CLEAR: RESOLVE whose action character is not 1 (R71, log 11). -/
  | resolveClear (tag console slot issue action : Byte)
  /-- RESOLVE_REFER: RESOLVE whose action character is 1 (R71). -/
  | resolveRefer (tag console slot issue : Byte)
  /-- READ_LANE (R183). -/
  | readLane (tag lane page : Byte)
  /-- READ_QUEUE (R184). -/
  | readQueue (tag list start : Byte)
  /-- READ_STATUS (R185). -/
  | readStatus (tag page : Byte)
  /-- READ_COUNTERS (R186). -/
  | readCounters (tag group clear : Byte)
  /-- SET_PARAM (R187). -/
  | setParam (tag param : Byte) (value : BitVec 24)
  /-- SET_TIME (R173). -/
  | setTime (tag : Byte) (value : Stamp)
  /-- PART_RESET (R191). -/
  | partReset (tag : Byte)
  /-- MESSAGE_COMPLETE (R158). -/
  | messageComplete
  /-- RESPONSE_COMPLETE (R181). -/
  | responseComplete
  /-- LANE_EVENT_COMPLETE (R167). -/
  | laneEventComplete
  /-- BAG_SETTLE_EXPIRY (R25). -/
  | bagSettleExpiry (lane : LaneIx)
  /-- INACTIVITY_EXPIRY (R27). -/
  | inactivityExpiry (lane : LaneIx)
  /-- PRESENCE_EXPIRY (R87). -/
  | presenceExpiry (lane : LaneIx)
  /-- REFUSAL_MESSAGE_EXPIRY (R47). -/
  | refusalMessageExpiry (lane : LaneIx)
  /-- ESCALATION_EXPIRY (R57). -/
  | escalationExpiry (slot : SlotIx)
  /-- OFFER_EXPIRY (R65). -/
  | offerExpiry (slot : SlotIx)
  /-- CLAIM_EXPIRY (R72). -/
  | claimExpiry (slot : SlotIx)
  /-- WAKE_SETTLE_EXPIRY (R134). -/
  | wakeSettleExpiry (line : LineIx)
  /-- POLL_END (R125). -/
  | pollEnd (line : LineIx)
  /-- MISS (R129). -/
  | miss (line : LineIx)
  /-- DAMAGED_ANSWER (R126). -/
  | damagedAnswer (line : LineIx)
  /-- ANSWER_TRUNCATED (R126). -/
  | answerTruncated (line : LineIx)
  /-- GOOD_ANSWER, with the characters received (R127, log 17). -/
  | goodAnswer (line : LineIx) (chars : List RxChar)
  /-- BREAK: a break recognised on the line (R119, R131, R134). -/
  | lineBreak (line : LineIx)
  /-- STRAY, with the character received (R132). -/
  | stray (line : LineIx) (char : RxChar)
  /-- IDLE_ROUND_END (R122). -/
  | idleRoundEnd (line : LineIx)
  /-- START_CHARACTER (R157). -/
  | startCharacter
  /-- ANSWER_START (R125). -/
  | answerStart (line : LineIx)
deriving DecidableEq, Repr

end Sys2Proof
end

