-- ==== Sys2Proof/Decode.lean ====
section
/-! DEFINITION. Words of the opcode table (no row of spec/opcode_table.json gives bits), and the
characters of the requests of channel 0 (section 11.2): which request a message spells, and back. -/

namespace Sys2Proof

/-- The command that a word of the opcode table spells. No row of the table gives bits ("fields" is
empty in every row), so no word spells a command. -/
def decodeTableWord (_nbits _w : Nat) : Option Instr := none

/-- Two characters of a 16-bit number, most significant first (R194). -/
def chars2 (x : BitVec 16) : List Byte := [x.extractLsb' 8 8, x.extractLsb' 0 8]

/-- Three characters of a 24-bit number, most significant first (R193, R194). -/
def chars3 (x : BitVec 24) : List Byte :=
  [x.extractLsb' 16 8, x.extractLsb' 8 8, x.extractLsb' 0 8]

/-- Four characters of a 32-bit number, most significant first (R194). -/
def chars4 (x : BitVec 32) : List Byte :=
  [x.extractLsb' 24 8, x.extractLsb' 16 8, x.extractLsb' 8 8, x.extractLsb' 0 8]

/-- Six characters of a 48-bit number, most significant first (R193, R194). -/
def chars6 (x : BitVec 48) : List Byte :=
  [x.extractLsb' 40 8, x.extractLsb' 32 8, x.extractLsb' 24 8, x.extractLsb' 16 8,
   x.extractLsb' 8 8, x.extractLsb' 0 8]

/-- The 16-bit number of two characters. -/
def num2 (a b : Byte) : BitVec 16 := a ++ b

/-- The 24-bit number of three characters. -/
def num3 (a b c : Byte) : BitVec 24 := a ++ b ++ c

/-- The 32-bit number of four characters. -/
def num4 (a b c d : Byte) : BitVec 32 := a ++ b ++ c ++ d

/-- The 48-bit number of six characters. -/
def num6 (a b c d e f : Byte) : BitVec 48 := a ++ b ++ c ++ d ++ e ++ f

/-- The entries of a LOAD GROUPS content, four characters each; none where the length is not that of
a whole number of entries (R180). -/
def groupEntries : List Byte → Option (List GroupWrite)
  | [] => some []
  | c1 :: c0 :: fl :: tol :: rest =>
    (groupEntries rest).map ({ code := num2 c1 c0, flags := fl, tol := tol } :: ·)
  | _ => none

/-- The entries of a LOAD WATCH content, eight characters each; none where the length is not that of
a whole number of entries (R180). -/
def watchEntries : List Byte → Option (List WatchWrite)
  | [] => some []
  | a5 :: a4 :: a3 :: a2 :: a1 :: a0 :: fl :: tol :: rest =>
    (watchEntries rest).map ({ article := num6 a5 a4 a3 a2 a1 a0, flags := fl, tol := tol } :: ·)
  | _ => none

/-- The characters of one LOAD GROUPS entry (11.2). -/
def GroupWrite.chars (e : GroupWrite) : List Byte := chars2 e.code ++ [e.flags, e.tol]

/-- The characters of one LOAD WATCH entry (11.2). -/
def WatchWrite.chars (e : WatchWrite) : List Byte := chars6 e.article ++ [e.flags, e.tol]

/-- A request message's kind, tag and content (11.2). -/
structure WireRequest where
  kind    : BitVec 6
  tag     : Byte
  content : List Byte
deriving DecidableEq, Repr

/-- The request of the catalogue that a kind and content spell, or none where the kind is not in the
catalogue or the length is not its kind's (R180, 11.2). -/
def catalogueRequest (kind : Nat) (t : Byte) (content : List Byte) : Option Instr :=
  match kind with
  | 1 => match content with | [c, n] => some (.credit t c n) | _ => none
  | 2 => match content with
    | [c, e] => some (if e = 0 then .channelSetDisable t c else .channelSetEnable t c e)
    | _ => none
  | 3 => match content with | [k, c] => some (.mapSet t k c) | _ => none
  | 4 => match content with | [b, g1, g0, w] => some (.loadBegin t b (num2 g1 g0) w) | _ => none
  | 5 => match content with
    | b :: es => (groupEntries es).map (.loadGroups t b)
    | _ => none
  | 6 => match content with
    | b :: es => (watchEntries es).map (.loadWatch t b)
    | _ => none
  | 7 => match content with | [b] => some (.loadEnd t b) | _ => none
  | 8 => match content with | [b] => some (.loadAbort t b) | _ => none
  | 9 => match content with | [b] => some (.commit t b) | _ => none
  | 10 => match content with | [b1, b0, l] => some (.badgeSet t (num2 b1 b0) l) | _ => none
  | 11 => match content with
    | [m, b1, b0] =>
      some (if m = 1 then .badgeClearAll t (num2 b1 b0) else .badgeClear t m (num2 b1 b0))
    | _ => none
  | 12 => match content with | [c, z2, z1, z0] => some (.zoneSet t c (num3 z2 z1 z0)) | _ => none
  | 13 => match content with | [l] => some (.laneOpen t l) | _ => none
  | 14 => match content with
    | [l, f] => some (if f = 1 then .laneCloseForce t l else .laneClose t l f)
    | _ => none
  | 15 => match content with | [l] => some (.laneReset t l) | _ => none
  | 16 => match content with | [l, e, g] => some (.inputSet t l e g) | _ => none
  | 17 => match content with | [n] => some (.lineQuiet t n) | _ => none
  | 18 => match content with | [n] => some (.lineWake t n) | _ => none
  | 19 => match content with | [c] => some (.consoleOn t c) | _ => none
  | 20 => match content with | [c] => some (.consoleOff t c) | _ => none
  | 21 => match content with | [c, k, i] => some (.claim t c k i) | _ => none
  | 22 => match content with | [c, k, i] => some (.decline t c k i) | _ => none
  | 23 => match content with | [c, k, i] => some (.release t c k i) | _ => none
  | 24 => match content with
    | [c, k, i, a] => some (if a = 1 then .resolveRefer t c k i else .resolveClear t c k i a)
    | _ => none
  | 25 => match content with | [l, p] => some (.readLane t l p) | _ => none
  | 26 => match content with | [q, p] => some (.readQueue t q p) | _ => none
  | 27 => match content with | [p] => some (.readStatus t p) | _ => none
  | 28 => match content with | [g, c] => some (.readCounters t g c) | _ => none
  | 29 => match content with | [p, v2, v1, v0] => some (.setParam t p (num3 v2 v1 v0)) | _ => none
  | 30 => match content with
    | [v3, v2, v1, v0] => some (.setTime t (num4 v3 v2 v1 v0))
    | _ => none
  | 31 => match content with | [] => some (.partReset t) | _ => none
  | _ => none

/-- The command that a complete channel 0 message with a good check is (R180). -/
def requestOf (w : WireRequest) : Instr :=
  (catalogueRequest w.kind.toNat w.tag w.content).getD (.unknownRequest w.tag w.kind w.content)

/-- The message a request command stands for; none for a command that is no request (11.2). -/
def Instr.wire : Instr → Option WireRequest
  | .unknownRequest t k cs => some ⟨k, t, cs⟩
  | .credit t c n => some ⟨1, t, [c, n]⟩
  | .channelSetEnable t c e => some ⟨2, t, [c, e]⟩
  | .channelSetDisable t c => some ⟨2, t, [c, 0]⟩
  | .mapSet t k c => some ⟨3, t, [k, c]⟩
  | .loadBegin t b g w => some ⟨4, t, b :: chars2 g ++ [w]⟩
  | .loadGroups t b es => some ⟨5, t, b :: es.flatMap GroupWrite.chars⟩
  | .loadWatch t b es => some ⟨6, t, b :: es.flatMap WatchWrite.chars⟩
  | .loadEnd t b => some ⟨7, t, [b]⟩
  | .loadAbort t b => some ⟨8, t, [b]⟩
  | .commit t b => some ⟨9, t, [b]⟩
  | .badgeSet t b l => some ⟨10, t, chars2 b ++ [l]⟩
  | .badgeClear t m b => some ⟨11, t, m :: chars2 b⟩
  | .badgeClearAll t b => some ⟨11, t, 1 :: chars2 b⟩
  | .zoneSet t c z => some ⟨12, t, c :: chars3 z⟩
  | .laneOpen t l => some ⟨13, t, [l]⟩
  | .laneClose t l f => some ⟨14, t, [l, f]⟩
  | .laneCloseForce t l => some ⟨14, t, [l, 1]⟩
  | .laneReset t l => some ⟨15, t, [l]⟩
  | .inputSet t l e g => some ⟨16, t, [l, e, g]⟩
  | .lineQuiet t n => some ⟨17, t, [n]⟩
  | .lineWake t n => some ⟨18, t, [n]⟩
  | .consoleOn t c => some ⟨19, t, [c]⟩
  | .consoleOff t c => some ⟨20, t, [c]⟩
  | .claim t c k i => some ⟨21, t, [c, k, i]⟩
  | .decline t c k i => some ⟨22, t, [c, k, i]⟩
  | .release t c k i => some ⟨23, t, [c, k, i]⟩
  | .resolveClear t c k i a => some ⟨24, t, [c, k, i, a]⟩
  | .resolveRefer t c k i => some ⟨24, t, [c, k, i, 1]⟩
  | .readLane t l p => some ⟨25, t, [l, p]⟩
  | .readQueue t q p => some ⟨26, t, [q, p]⟩
  | .readStatus t p => some ⟨27, t, [p]⟩
  | .readCounters t g c => some ⟨28, t, [g, c]⟩
  | .setParam t p v => some ⟨29, t, p :: chars3 v⟩
  | .setTime t v => some ⟨30, t, chars4 v⟩
  | .partReset t => some ⟨31, t, []⟩
  | .powerOn _ | .resetPinLow | .resetPinHigh | .tick _ | .linkDown | .linkUp
  | .callInputSample _ | .skippedCharacter | .badLength | .truncated | .badCheck | .wrongChannel
  | .lostRequest | .messageComplete | .responseComplete | .laneEventComplete
  | .bagSettleExpiry _ | .inactivityExpiry _ | .presenceExpiry _ | .refusalMessageExpiry _
  | .escalationExpiry _ | .offerExpiry _ | .claimExpiry _ | .wakeSettleExpiry _ | .pollEnd _
  | .miss _ | .damagedAnswer _ | .answerTruncated _ | .goodAnswer _ _ | .lineBreak _ | .stray _ _
  | .idleRoundEnd _ | .startCharacter | .answerStart _ => none

end Sys2Proof
end

