-- ==== Sys2Proof/Config.lean ====
section
/-! DEFINITION. The figures of section 0.3 and of the rules, and the one free value of the model. -/

namespace Sys2Proof.Config

/-- Item count limit (R19). -/
def maxItems : Nat := 999
/-- Running value limit in cents (R19). -/
def maxValue : Nat := 9999999
/-- Expected weight limit in grams (R19). -/
def maxExpected : Nat := 9999999
/-- Recent item stack depth (R2). -/
def maxStack : Nat := 8
/-- Deferred list length (R40). -/
def maxDeferred : Nat := 6
/-- Channel queue length (R164). -/
def maxQueue : Nat := 24
/-- Credit limit (R161). -/
def maxCredit : Nat := 63
/-- Pass count limit (R166). -/
def maxPass : Nat := 8
/-- Response slots (R179). -/
def maxSlots : Nat := 8
/-- Watch list length (R101). -/
def maxWatch : Nat := 128
/-- Badge list length (R113). -/
def maxBadges : Nat := 64
/-- Where every counter stops (R1, R79, R98, R135, R154, R170, R179). -/
def maxCounter : Nat := 65535
/-- Refusal message timer, in ticks (R47). -/
def refusalTicks : Nat := 3
/-- Wake settle timer, in ticks (R134). -/
def settleTicks : Nat := 2
/-- Ticks after which an incomplete message is found truncated (R157). -/
def truncationTicks : Nat := 2
/-- Quality at which trouble begins (R130). -/
def troubleOn : Nat := 12
/-- Quality below which trouble ends (R130). -/
def troubleOff : Nat := 8

/-- FREE VALUE. The tag character of the `n`-th lane event sent: the spec gives lane event messages a
tag character and states no value for it (R194 states one for snapshots and notices only; log 14). -/
opaque laneEventTag : Nat → Byte

end Sys2Proof.Config
end

