-- ==== Sys2Proof/Machine/State.lean ====
section
/-! DEFINITION. The state of the LC24 as plain data, and its values after reset. -/

namespace Sys2Proof.Machine

/-! ## Names in capitals -/

/-- The ten reasons, in the order of R29 (11.3). -/
inductive Reason where
  | help | weight | age | void | watch | highValue | lostFrame | link | idle | payFail
deriving DecidableEq, Repr

/-- Lane states with the phase of CLOSING (R4, 11.3). -/
inductive LaneState where
  | closed | ready | scanning | paying | closingScan | closingPay
deriving DecidableEq, Repr

/-- The two article banks (R100). -/
inductive BankId where
  | a | b
deriving DecidableEq, Repr

/-- Limit codes (R19). -/
inductive LimitCode where
  | itemCount | value | weight
deriving DecidableEq, Repr

/-- HELP sources (R31). -/
inductive HelpSource where
  | screen | button | limit
deriving DecidableEq, Repr

/-- The set of HELP sources (R31). -/
structure HelpSources where
  screen : Bool := false
  button : Bool := false
  limit  : Bool := false
deriving DecidableEq, Repr

/-- Details of reasons, by type (R29). -/
inductive Detail where
  | grams (d : Int)
  | article (a : Article)
  | cents (n : Nat)
  | lost (n : Nat)
  | limit (c : LimitCode)
deriving DecidableEq, Repr

/-- The seven override actions (R90, 11.1). -/
inductive Action where
  | ack | voidLast | approveWeight | approveItem | approveAge | approveValue | cancel
deriving DecidableEq, Repr

/-- The eleven lane frame kinds (R143, 11.1). -/
inductive FrameKind where
  | scan | weigh | bag | remove | help | total | resumeScan | paid | tenderFail | badge | override
deriving DecidableEq, Repr

/-- A well-formed lane frame: its kind and the fields of its content (R143, 11.1). -/
inductive LaneFrame where
  | scan (article : Article) (group : BitVec 16) (quantity : Byte) (price weight : BitVec 24)
  | weigh (article : Article) (group : BitVec 16) (weight price : BitVec 24)
  | bag (reading : BitVec 24) (stable : Bool)
  | remove (article : Article)
  | help
  | total (cents : BitVec 24)
  | resumeScan
  | paid (cents : BitVec 24)
  | tenderFail (cents : BitVec 24)
  | badge (number : BadgeNo)
  | override (action : Action)
deriving DecidableEq, Repr

/-- Lamps (R45). -/
inductive Lamp where
  | off | green | amber | red
deriving DecidableEq, Repr

/-- Directive messages (R46, 11.4). -/
inductive Message where
  | none | laneClosed | badgeRefused | badgeRequired | levelTooLow | attendantPresent
  | removeItem | placeItem | waitAssist | callNoted
deriving DecidableEq, Repr

/-- Refusal messages (R47). -/
inductive RefusalMsg where
  | badgeRefused | badgeRequired | levelTooLow
deriving DecidableEq, Repr

/-- Badge levels (R113). -/
inductive Level where
  | one | two
deriving DecidableEq, Repr

/-- Item sources (R2). -/
inductive ItemSource where
  | scan | weigh
deriving DecidableEq, Repr

/-- Link states of drops (R121). -/
inductive LinkState where
  | online | silent | offline
deriving DecidableEq, Repr

/-- Edge selections of call inputs (R136). -/
inductive Edge where
  | rise | fall | both
deriving DecidableEq, Repr

/-- Causes of console snapshots (R60, 11.3). -/
inductive Cause where
  | noneYet | offer | withdrawn | recalled | resolved | laneEnded | loggedOff | claimed
deriving DecidableEq, Repr

/-- Bank states (R103). -/
inductive BankState where
  | empty | loading | invalid | ready | current
deriving DecidableEq, Repr

/-- Channel states (R159). -/
inductive ChanState where
  | disabled | pending | opened
deriving DecidableEq, Repr

/-- Line states (R120). -/
inductive LineState where
  | active | quiet | waking
deriving DecidableEq, Repr

/-- Reset causes (R190). -/
inductive ResetCause where
  | power | pin | request
deriving DecidableEq, Repr

/-- Outcomes of responses (R182). -/
inductive Answer where
  | done | badArgument | badState | notFound | taken | full | bankPinned | loadConflict
  | countMismatch | noTables | presenceRequired
deriving DecidableEq, Repr

/-! ## The lane context (R1, chapter 1) -/

/-- An entry of the recent item stack (R2). -/
structure Item where
  article   : Article
  group     : BitVec 16
  quantity  : Nat
  lineValue : Nat
  weight    : Nat
  tolerance : Nat
  age       : Bool
  source    : ItemSource
deriving DecidableEq, Repr

/-- The totals of a transaction (R1). -/
structure Totals where
  itemCount   : Nat := 0
  /-- V -/
  value       : Nat := 0
  /-- E -/
  expected    : Nat := 0
  /-- T -/
  tolerance   : Nat := 0
  /-- M -/
  bag         : Option Nat := none
  ageCount    : Nat := 0
  ageApproved : Bool := false
  highRaised  : Bool := false
deriving DecidableEq, Repr

/-- An entry of the raised set (R31). -/
structure Raised where
  stamp  : Stamp
  queued : Bool
  detail : Option Detail
deriving DecidableEq, Repr

/-- A frame in its buffer (R150); `gap` is the GAP mark. -/
structure Frame where
  buf  : BufId
  lane : LaneIx
  seq  : Seq
  body : LaneFrame
  gap  : Bool
deriving DecidableEq, Repr

/-- A presence session (R81). -/
structure Session where
  badge  : BadgeNo
  level  : Level
  opened : Stamp
deriving DecidableEq, Repr

/-- The directive word (R45). -/
structure DirectiveWord where
  lamp    : Lamp := .off
  pause   : Bool := false
  message : Message := .laneClosed
  gen     : Gen := 0
deriving DecidableEq, Repr

/-- The call input of a lane (R136). -/
structure CallInput where
  enabled : Bool := false
  edge    : Edge := .fall
  prev    : Option Bool := none
  level   : Option Bool := none
  pending : Bool := false
deriving DecidableEq, Repr

/-- The link record of a lane's drop (R121, R139); `lastSeq` is absent while unsynchronised. -/
structure DropLink where
  link    : LinkState := .online
  misses  : Nat := 0
  quality : Nat := 0
  trouble : Bool := false
  lastSeq : Option Seq := none
deriving DecidableEq, Repr

/-- The counters of a lane (R1, R154). -/
structure LaneCounters where
  outOfPlace : Counter := 0
  freed      : Counter := 0
  duplicates : Counter := 0
  gaps       : Counter := 0
  malformed  : Counter := 0
  refused    : Counter := 0
deriving DecidableEq, Repr

/-- A lane context (1.1). -/
structure Lane where
  state        : LaneState := .closed
  txn          : TxnNo := 0
  pinned       : Option BankId := none
  totals       : Totals := {}
  stack        : List Item := []
  /-- the raised set, indexed by reason code -/
  raised       : Vector (Option Raised) 10 := Vector.replicate 10 none
  help         : HelpSources := {}
  deferred     : List Frame := []
  session      : Option Session := none
  word         : DirectiveWord := {}
  echo         : Option Gen := none
  lastDirect   : Option Gen := none
  refusal      : Option RefusalMsg := none
  refusalMark  : Bool := false
  bagSettle    : Timer := none
  inactivity   : Timer := none
  presence     : Timer := none
  refusalTimer : Timer := none
  call         : CallInput := {}
  drop         : DropLink := {}
  counters     : LaneCounters := {}
deriving DecidableEq, Repr

/-! ## The intervention queue and the roster (chapter 3) -/

/-- Record states with the fields that are present in them only (R50). -/
inductive RecState where
  | waiting
  | offered (console : ConsoleIx) (sent : Bool)
  | claimed (by_ : ConsoleIx)
  | attending (by_ : Option ConsoleIx)
deriving DecidableEq, Repr

/-- An intervention record (R50); its id is its slot with the slot's issue. -/
structure Record where
  lane          : LaneIx
  reason        : Reason
  base          : Fin 4
  current       : Fin 4
  stamp         : Stamp
  state         : RecState
  declined      : ConsoleSet := 0
  needsPresence : Bool
  detail        : Option Detail
  escal         : Timer := none
  offer         : Timer := none
  claim         : Timer := none
deriving DecidableEq, Repr

/-- A record slot (R51). -/
structure QSlot where
  issue : BitVec 4 := 0
  rec?  : Option Record := none
deriving DecidableEq, Repr

/-- Console states with the slot of the record they name (R58). -/
inductive ConsoleState where
  | absent
  | free
  | offered (slot : SlotIx)
  | busy (slot : SlotIx)
deriving DecidableEq, Repr

/-- A roster entry (R58); `saved` holds the saved flag and cause of R61. -/
structure Console where
  state   : ConsoleState := .absent
  pending : Bool := false
  cause   : Cause := .noneYet
  saved   : Option (Bool × Cause) := none
deriving DecidableEq, Repr

/-- The intervention queue and dispatcher. `dispatchDue` and `freedSlots` are the model's own: the
dispatch and the insertions that the present event still owes (R62, R54, log 24). -/
structure Desk where
  slots          : Vector QSlot 48 := Vector.replicate 48 {}
  consoles       : Vector Console 4 := Vector.replicate 4 {}
  freeOrder      : List ConsoleIx := []
  unqueuedRaises : Counter := 0
  offerExpiries  : Counter := 0
  claimRecalls   : Counter := 0
  dispatchDue    : Bool := false
  freedSlots     : Nat := 0
deriving DecidableEq, Repr

/-! ## Traffic channels (chapter 8) -/

/-- A lane event in its frame's buffer (R14, R163). -/
structure LaneEvent where
  frame      : Frame
  txn        : Option TxnNo
  stamp      : Stamp
  annos      : AnnoSet
  raised     : ReasonSet
  unresolved : ReasonSet
deriving DecidableEq, Repr

/-- A traffic channel record with its counters (R159, R170). -/
structure Channel where
  state     : ChanState := .disabled
  credit    : Nat := 0
  queue     : List LaneEvent := []
  pass      : Nat := 0
  sent      : Counter := 0
  discarded : Counter := 0
deriving DecidableEq, Repr

/-- The counters of the presence unit (R98). -/
structure PresenceCounters where
  badgeRefusals    : Counter := 0
  withoutSession   : Counter := 0
  overrideRefusals : Counter := 0
  sessionExpiries  : Counter := 0
deriving DecidableEq, Repr

/-- What a lane event may change: the lanes, the queue and roster, the free list, the channel queues,
the LANE notice flags, the presence counters and the release pointer. `touched` is the model's own:
the lanes that derive their directive word at the end of the present event (R48, log 24). -/
structure Floor where
  lanes      : Vector Lane 24 := Vector.replicate 24 {}
  desk       : Desk := {}
  free       : List BufId := List.finRange 64
  chans      : Vector Channel 3 := Vector.replicate 3 {}
  laneFlags  : LaneSet := 0
  presence   : PresenceCounters := {}
  releasePtr : LaneIx := 0
  touched    : LaneSet := 0
deriving DecidableEq, Repr

/-! ## Lane lines (chapter 6) -/

/-- Phases of a turn (R125). -/
inductive Phase where
  | sending | window | receiving
deriving DecidableEq, Repr

/-- A turn in progress: its drop and phase, whether its POLL carries STANDBY, and the characters of
the DIRECT (empty where none is sent) and the POLL (R120, R123 to R125). -/
structure Turn where
  drop    : DropIx
  phase   : Phase
  standby : Bool
  direct  : List LineChar
  poll    : List LineChar
deriving DecidableEq, Repr

/-- Attention rounds (R120, R131). -/
inductive Attention where
  | inactive
  | due
  | active (next : DropIx)
deriving DecidableEq, Repr

/-- The counters of a line (R135). -/
structure LineCounters where
  misses        : Counter := 0
  damaged       : Counter := 0
  noisy         : Counter := 0
  breaks        : Counter := 0
  ignoredBreaks : Counter := 0
  strays        : Counter := 0
  standbyPolls  : Counter := 0
  standbyFrames : Counter := 0
deriving DecidableEq, Repr

/-- A line record (R120). `idleWait` says that the idle interval of R122 is running, `roundServed`
that the present round has had a due drop (R122, log 24). -/
structure Line where
  state        : LineState := .active
  quietPending : Bool := false
  pos          : DropIx := 0
  round        : Fin 8 := 0
  slot         : Option BufId := none
  turn         : Option Turn := none
  attention    : Attention := .inactive
  settle       : Timer := none
  idleWait     : Bool := false
  roundServed  : Bool := false
  counters     : LineCounters := {}
deriving DecidableEq, Repr

/-! ## Reference tables (chapter 5) -/

/-- A valid group entry (R100). -/
structure GroupEntry where
  age       : Bool
  attendant : Bool
  exempt    : Bool
  tol       : Nat
deriving DecidableEq, Repr

/-- A watch entry (R101). -/
structure WatchEntry where
  refer     : Bool
  age       : Bool
  exempt    : Bool
  tol       : Option Nat
deriving DecidableEq, Repr

/-- A bank (R100, R103): the valid group entries by group code and the watch entries by article code,
each list with rising keys (log 13). -/
structure Bank where
  state      : BankState := .empty
  groups     : List (Nat × GroupEntry) := []
  watch      : List (Nat × WatchEntry) := []
  declGroups : Nat := 0
  declWatch  : Nat := 0
deriving DecidableEq, Repr

/-- The reference tables (R100, R113, R116); the badge list by badge number, with rising keys. -/
structure Tables where
  bankA  : Bank := {}
  bankB  : Bank := {}
  badges : List (Nat × Level) := []
  zones  : Vector LaneSet 4 := Vector.replicate 4 (BitVec.allOnes 24)
deriving DecidableEq, Repr

/-- The kind-to-channel map (R162), by kind code less 1; its defaults are those of R162. -/
abbrev ChanMap := Vector (Option ChanIx) 11

/-! ## Parameters (R187) -/

/-- The parameters, with the defaults of R187 and R29. -/
structure Params where
  baseTolerance : Nat := 20
  toleranceCap  : Nat := 2000
  highLimit     : Nat := 30000
  bagSettle     : Nat := 80
  inactivity    : Nat := 1200
  presence      : Nat := 900
  offer         : Nat := 100
  claim         : Nat := 1800
  escal0        : Nat := 600
  escal1        : Nat := 450
  escal2        : Nat := 300
  /-- base priorities by reason code (R29) -/
  base          : Vector (Fin 4) 10 := #v[1, 1, 1, 1, 2, 1, 2, 3, 0, 2]
  /-- notice mask: bit 0 PART, bit 1 LINE, bit 2 LANE; 1 enabled (11.2) -/
  mask          : BitVec 3 := 7
deriving DecidableEq, Repr

/-! ## The store link and the management responder (chapters 8 and 10) -/

/-- The store link receiver (R157), with the ticks since the last character of the message. -/
inductive Receiver where
  | hunt
  | message (ticks : Nat)
deriving DecidableEq, Repr

/-- What the message in transmission is (R158). -/
inductive TxWhat where
  | response
  | snapshot (console : ConsoleIx)
  | partNotice
  | lineNotice (lane : LaneIx)
  | laneNotice (lane : LaneIx)
  | laneEvent (chan : ChanIx)
deriving DecidableEq, Repr

/-- A message in transmission with the fields of its characters (8.1, 11.2). -/
structure TxMessage where
  what    : TxWhat
  channel : BitVec 2
  kind    : BitVec 6
  tag     : Byte
  content : List Byte
deriving DecidableEq, Repr

/-- The link: LINK_OK filter, receiver, transmitter and counters (R156 to R158, R170). -/
structure Link where
  prev         : Option Bool := none
  level        : Option Bool := none
  due          : Option Bool := none
  rx           : Receiver := .hunt
  tx           : Option TxMessage := none
  skipped      : Counter := 0
  badLength    : Counter := 0
  truncated    : Counter := 0
  badCheck     : Counter := 0
  wrongChannel : Counter := 0
deriving DecidableEq, Repr

/-- A response in its slot (R180). -/
structure Response where
  tag     : Byte
  kind    : BitVec 6
  outcome : Answer
  results : List Byte
deriving DecidableEq, Repr

/-- The management responder: reserved response slots (oldest first), lost-request counter, fault word
and pending PART RESET (R179, R181, R190, R191). -/
structure Mgmt where
  slots        : List Response := []
  lost         : Counter := 0
  cause        : ResetCause := .power
  conflictSeen : Bool := false
  lostSeen     : Bool := false
  resetPending : Bool := false
deriving DecidableEq, Repr

/-- PART and LINE notice pending flags and the rotation pointers (R188, R189, R192). -/
structure Notices where
  part       : Bool := false
  line       : LaneSet := 0
  consolePtr : ConsoleIx := 3
  linePtr    : LaneIx := 23
  lanePtr    : LaneIx := 23
deriving DecidableEq, Repr

/-- The state of the part. `pending` is the queue of commands that are waiting (log 1); `held` says
that the RESET pin holds the part in reset and which cause its release will record (R191). -/
structure State where
  floor     : Floor
  lines     : Vector Line 4
  tables    : Tables
  map       : ChanMap
  params    : Params
  link      : Link
  mgmt      : Mgmt
  notices   : Notices
  poolEmpty : Counter
  storeTime : Stamp
  prescaler : Fin 1474560
  held      : Option ResetCause
  freeCount : Nat
  pending   : List Instr
deriving DecidableEq, Repr

/-- The defaults of the kind-to-channel map (R162). -/
def ChanMap.defaults : ChanMap :=
  #v[some 0, some 0, none, some 2, some 2, some 1, some 1, some 1, some 1, some 2, some 2]

/-- Reasons a command can stop the part with a fault. -/
inductive Fault where
  /-- Raised by no command: the spec names no condition that stops the part (log 25). Safe. -/
  | unused
deriving DecidableEq, Repr

/-- Reasons a command can be refused. -/
inductive Refusal where
  /-- Raised by a command that has no meaning yet, with its row's mnemonic; none is left. Safe. -/
  | notModelled (mnemonic : String)
deriving DecidableEq, Repr

/-- The part after power-on, with no turn begun yet: the values of the "After reset" tables (R28, R49,
R80, R99, R117, R138, R155, R171, R178, R192). The first turns begin inside POWER_ON (log 5). -/
def State.reset : State where
  floor := {}
  lines := Vector.replicate 4 {}
  tables := {}
  map := ChanMap.defaults
  params := {}
  link := {}
  mgmt := {}
  notices := {}
  poolEmpty := 0
  storeTime := 0
  prescaler := 0
  held := none
  freeCount := 0
  pending := []

end Sys2Proof.Machine
end

