-- ==== Sys2Proof/Machine/Operands.lean ====
section
/-! DEFINITION. What operands mean: received lane line characters and answers (R118, R126, R193), the
content of lane frames (R143, 11.1), the characters of requests (R194), and the codes of 11.3. -/

namespace Sys2Proof.Machine

/-! ## Checks (R193, R194) -/

/-- The bits of a character, most significant first. -/
def bitsMsb (b : Byte) : List Bool :=
  [b.getLsbD 7, b.getLsbD 6, b.getLsbD 5, b.getLsbD 4, b.getLsbD 3, b.getLsbD 2, b.getLsbD 1,
   b.getLsbD 0]

/-- One bit fed into the 8-bit register with generator x⁸ + x⁵ + x⁴ + 1 (R193). -/
def crc8Bit (r : Byte) (bit : Bool) : Byte :=
  (r <<< 1) ^^^ (if r.msb != bit then 0x31 else 0)

/-- The lane line check of a run of characters: register from 0, no inversion (R193). -/
def crc8 (cs : List Byte) : Byte := (cs.flatMap bitsMsb).foldl crc8Bit 0

/-- One bit fed into the 16-bit register with generator x¹⁶ + x¹² + x⁵ + 1 (R194). -/
def crc16Bit (r : BitVec 16) (bit : Bool) : BitVec 16 :=
  (r <<< 1) ^^^ (if r.msb != bit then 0x1021 else 0)

/-- The store link check of a run of characters: register from 65,535, no inversion (R194). -/
def crc16 (cs : List Byte) : BitVec 16 := (cs.flatMap bitsMsb).foldl crc16Bit 0xFFFF

/-! ## Lane line characters (R118) -/

/-- The odd parity bit of a character (R118). -/
def oddParity (data : Byte) (marker : Bool) : Bool :=
  !((bitsMsb data).foldl xor marker)

/-- A character as sent: start bit (space), 8 data bits least significant first, marker bit, odd parity
bit, stop bit (mark) (R118). -/
def lineChar (data : Byte) (marker : Bool) : LineChar :=
  1#1 ++ BitVec.ofBool (oddParity data marker) ++ BitVec.ofBool marker ++ data ++ 0#1

/-- Each bit of a received character, decided by the majority of its three middle samples (R118). -/
def rxBits (c : RxChar) : LineChar :=
  (c.s7 &&& c.s8) ||| (c.s7 &&& c.s9) ||| (c.s8 &&& c.s9)

/-- The 8 data bits of a received character (R118). -/
def rxData (c : RxChar) : Byte := (rxBits c).extractLsb' 1 8

/-- A start bit decided as mark is a false start (R118). -/
def rxFalseStart (c : RxChar) : Bool := (rxBits c).getLsbD 0

/-- A received character that is not damaged, where its marker bit should be `marker`: right parity,
a stop bit decided as mark, and the marker bit in its place (R118). -/
def rxIntact (marker : Bool) (c : RxChar) : Bool :=
  (rxBits c).getLsbD 11 &&
  (rxBits c).getLsbD 9 == marker &&
  (rxBits c).getLsbD 10 == oddParity (rxData c) ((rxBits c).getLsbD 9)

/-- In some bit the three middle samples do not all agree (R118). -/
def rxNoisy (c : RxChar) : Bool := !(c.s7 == c.s8 && c.s8 == c.s9)

/-- A character received with every sample agreeing with the line (R118). -/
def rxClean (c : LineChar) : RxChar := { s7 := c, s8 := c, s9 := c }

/-! ## Answers (R126, 11.1) -/

/-- The lane frame of a good answer at line level: kind code, sequence and content (R126). -/
structure RawFrame where
  code    : BitVec 5
  seq     : Seq
  content : List Byte
deriving DecidableEq, Repr

/-- A good answer: a NIL where `frame` is none (R126). -/
structure GoodAnswer where
  echo  : Gen
  noisy : Bool
  frame : Option RawFrame
deriving DecidableEq, Repr

/-- The address character of a message or answer (11.1). -/
def addressChar (d : DropIx) (code : BitVec 5) : Byte := code ++ BitVec.ofFin (w := 3) ⟨d.1, by omega⟩

/-- The characters after the first damaged one among the next `n` of an answer, where one of them is
damaged: reception ends at it, and what follows are strays (R126, R132). -/
def afterDamage : Nat → List RxChar → Option (List RxChar)
  | 0, _ => none
  | _, [] => none
  | n + 1, c :: cs => if rxIntact false c then afterDamage n cs else some cs

/-- The rest of a lane frame, after its address and length characters: sequence and echo, content and the
check over everything before it (R126, R193). None for a damaged answer; the characters left over after
the answer, good or damaged, come with it. -/
def receiveFrame (a len : RxChar) (more : List RxChar) : Option GoodAnswer × List RxChar :=
  let n := (rxData len).toNat + 2
  match afterDamage n more with
  | some rest => (none, rest)
  | none =>
    let body := more.take n
    let rest := more.drop n
    match body.map rxData with
    | [] => (none, rest)
    | se :: tail =>
      if body.length = n ∧
          tail.getLast? = some (crc8 (rxData a :: rxData len :: se :: tail.dropLast)) then
        (some { echo := se.extractLsb' 3 3
                noisy := (a :: len :: body).any rxNoisy
                frame := some { code := (rxData a).extractLsb' 3 5
                                seq := se.extractLsb' 0 3
                                content := tail.dropLast } }, rest)
      else (none, rest)

/-- The characters of an answer judged against the drop polled, up to the first finding that makes it
damaged: the good answer they make, or none where it is damaged, and the characters after its end, which
are strays (R126, R132). Characters that run out before the answer is complete are a truncation
(log 17). -/
def receiveAnswer (d : DropIx) (chars : List RxChar) : Option GoodAnswer × List RxChar :=
  match chars.filter (fun c => !rxFalseStart c) with
  | [] => (none, [])
  | a :: rest =>
    if rxIntact true a = false ∨ ((rxData a).extractLsb' 0 3).toNat ≠ d.1 then (none, rest)
    else
      match rest with
      | [] => (none, [])
      | c :: more =>
        if rxIntact false c = false then (none, more)
        else if (rxData a).extractLsb' 3 5 = 0 then
          (some { echo := (rxData c).extractLsb' 0 3, noisy := rxNoisy a || rxNoisy c
                  frame := none }, more)
        else if 40 < (rxData c).toNat then (none, more)
        else receiveFrame a c more

/-- The characters, each received clean, of a NIL from drop `d` (11.1). -/
def nilAnswer (d : DropIx) (echo : Gen) : List RxChar :=
  [rxClean (lineChar (addressChar d 0) true), rxClean (lineChar (echo.setWidth 8) false)]

/-- The characters, each received clean, of a lane frame from drop `d` (11.1). -/
def frameAnswer (d : DropIx) (code : BitVec 5) (seq : Seq) (echo : Gen) (content : List Byte) :
    List RxChar :=
  let head := addressChar d code
  let rest := BitVec.ofNat 8 content.length :: ((echo ++ seq).setWidth 8) :: content
  rxClean (lineChar head true) ::
    (rest ++ [crc8 (head :: rest)]).map (fun b => rxClean (lineChar b false))

/-! ## Lane frames (R143, 11.1) -/

/-- Position of a kind in the table of 11.1; its code is one more. -/
def FrameKind.ix : FrameKind → Fin 11
  | .scan => 0 | .weigh => 1 | .bag => 2 | .remove => 3 | .help => 4 | .total => 5
  | .resumeScan => 6 | .paid => 7 | .tenderFail => 8 | .badge => 9 | .override => 10

/-- The kind of a kind code 1 to 11 (11.1). -/
def frameKindOf (code : Nat) : Option FrameKind :=
  match code with
  | 1 => some .scan | 2 => some .weigh | 3 => some .bag | 4 => some .remove | 5 => some .help
  | 6 => some .total | 7 => some .resumeScan | 8 => some .paid | 9 => some .tenderFail
  | 10 => some .badge | 11 => some .override | _ => none

/-- The kind of a lane frame. -/
def LaneFrame.kind : LaneFrame → FrameKind
  | .scan .. => .scan | .weigh .. => .weigh | .bag .. => .bag | .remove .. => .remove
  | .help => .help | .total .. => .total | .resumeScan => .resumeScan | .paid .. => .paid
  | .tenderFail .. => .tenderFail | .badge .. => .badge | .override .. => .override

/-- Code of an override action (11.1). -/
def Action.code : Action → Byte
  | .ack => 1 | .voidLast => 2 | .approveWeight => 3 | .approveItem => 4 | .approveAge => 5
  | .approveValue => 6 | .cancel => 7

/-- The override action of a code 1 to 7 (11.1). -/
def actionOf (b : Byte) : Option Action :=
  match b.toNat with
  | 1 => some .ack | 2 => some .voidLast | 3 => some .approveWeight | 4 => some .approveItem
  | 5 => some .approveAge | 6 => some .approveValue | 7 => some .cancel | _ => none

/-- The level an action needs (4.5). -/
def Action.level : Action → Level
  | .ack | .voidLast | .approveWeight | .approveItem => .one
  | .approveAge | .approveValue | .cancel => .two

/-- The deferrable kinds (R39). -/
def FrameKind.deferrable : FrameKind → Bool
  | .scan | .weigh | .total | .resumeScan => true
  | .bag | .remove | .help | .paid | .tenderFail | .badge | .override => false

/-- The form check: the frame that a kind code and content spell, or none where the frame is malformed
by kind, length, range or code (R143, 11.1). -/
def parseFrame (code : Nat) (content : List Byte) : Option LaneFrame :=
  match code with
  | 1 => match content with
    | [a5, a4, a3, a2, a1, a0, g1, g0, q, p2, p1, p0, w2, w1, w0] =>
      if (num2 g1 g0).toNat ≤ 1023 ∧ 1 ≤ q.toNat ∧ q.toNat ≤ 99 ∧
          (num3 p2 p1 p0).toNat ≤ 999999 ∧ (num3 w2 w1 w0).toNat ≤ 99999 then
        some (.scan (num6 a5 a4 a3 a2 a1 a0) (num2 g1 g0) q (num3 p2 p1 p0) (num3 w2 w1 w0))
      else none
    | _ => none
  | 2 => match content with
    | [a5, a4, a3, a2, a1, a0, g1, g0, w2, w1, w0, p2, p1, p0] =>
      if (num2 g1 g0).toNat ≤ 1023 ∧ (num3 w2 w1 w0).toNat ≤ 99999 ∧
          (num3 p2 p1 p0).toNat ≤ 999999 then
        some (.weigh (num6 a5 a4 a3 a2 a1 a0) (num2 g1 g0) (num3 w2 w1 w0) (num3 p2 p1 p0))
      else none
    | _ => none
  | 3 => match content with
    | [r2, r1, r0, st] =>
      if (num3 r2 r1 r0).toNat ≤ 99999 ∧ (st = 0 ∨ st = 1) then
        some (.bag (num3 r2 r1 r0) (st == 1))
      else none
    | _ => none
  | 4 => match content with
    | [a5, a4, a3, a2, a1, a0] => some (.remove (num6 a5 a4 a3 a2 a1 a0))
    | _ => none
  | 5 => match content with | [] => some .help | _ => none
  | 6 => match content with
    | [c2, c1, c0] => if (num3 c2 c1 c0).toNat ≤ 9999999 then some (.total (num3 c2 c1 c0)) else none
    | _ => none
  | 7 => match content with | [] => some .resumeScan | _ => none
  | 8 => match content with
    | [c2, c1, c0] => if (num3 c2 c1 c0).toNat ≤ 9999999 then some (.paid (num3 c2 c1 c0)) else none
    | _ => none
  | 9 => match content with
    | [c2, c1, c0] =>
      if (num3 c2 c1 c0).toNat ≤ 9999999 then some (.tenderFail (num3 c2 c1 c0)) else none
    | _ => none
  | 10 => match content with | [b1, b0] => some (.badge (num2 b1 b0)) | _ => none
  | 11 => match content with | [a] => (actionOf a).map .override | _ => none
  | _ => none

/-- The original content of a well-formed frame (11.1). -/
def LaneFrame.content : LaneFrame → List Byte
  | .scan a g q p w => chars6 a ++ chars2 g ++ [q] ++ chars3 p ++ chars3 w
  | .weigh a g w p => chars6 a ++ chars2 g ++ chars3 w ++ chars3 p
  | .bag r st => chars3 r ++ [if st then 1 else 0]
  | .remove a => chars6 a
  | .help => []
  | .total c => chars3 c
  | .resumeScan => []
  | .paid c => chars3 c
  | .tenderFail c => chars3 c
  | .badge n => chars2 n
  | .override a => [a.code]

/-- The ranges of R143 on the fields of a frame. -/
def LaneFrame.inRange : LaneFrame → Bool
  | .scan _ g q p w =>
    g.toNat ≤ 1023 && 1 ≤ q.toNat && q.toNat ≤ 99 && p.toNat ≤ 999999 && w.toNat ≤ 99999
  | .weigh _ g w p => g.toNat ≤ 1023 && w.toNat ≤ 99999 && p.toNat ≤ 999999
  | .bag r _ => r.toNat ≤ 99999
  | .total c | .paid c | .tenderFail c => c.toNat ≤ 9999999
  | .remove _ | .help | .resumeScan | .badge _ | .override _ => true

/-! ## Characters of requests (R194) -/

/-- A number below `n` carried by one character. -/
def finArg (n : Nat) (b : Byte) : Option (Fin n) :=
  if h : b.toNat < n then some ⟨b.toNat, h⟩ else none

/-- A traffic channel number 1 to 3. -/
def chanArg (b : Byte) : Option ChanIx :=
  match b.toNat with
  | 1 => some 0 | 2 => some 1 | 3 => some 2 | _ => none

/-- A channel of MAP SET: 1 to 3, or 0 for none (R162, 11.2). -/
def mapArg (b : Byte) : Option (Option ChanIx) :=
  if b = 0 then some none else (chanArg b).map some

/-- A bank: 0 A, 1 B (R194). -/
def bankArg (b : Byte) : Option BankId :=
  match b.toNat with
  | 0 => some .a | 1 => some .b | _ => none

/-- A yes/no character (R194). -/
def yesNoArg (b : Byte) : Option Bool :=
  match b.toNat with
  | 0 => some false | 1 => some true | _ => none

/-- An edge: 0 RISE, 1 FALL, 2 BOTH (11.2). -/
def edgeArg (b : Byte) : Option Edge :=
  match b.toNat with
  | 0 => some .rise | 1 => some .fall | 2 => some .both | _ => none

/-- A badge level, 1 or 2 (R114). -/
def levelArg (b : Byte) : Option Level :=
  match b.toNat with
  | 1 => some .one | 2 => some .two | _ => none

/-! ## Codes (11.3, 11.4) -/

/-- Reason codes (11.3). -/
def Reason.ix : Reason → Fin 10
  | .help => 0 | .weight => 1 | .age => 2 | .void => 3 | .watch => 4 | .highValue => 5
  | .lostFrame => 6 | .link => 7 | .idle => 8 | .payFail => 9

/-- The reasons in the order of R29. -/
def allReasons : List Reason :=
  [.help, .weight, .age, .void, .watch, .highValue, .lostFrame, .link, .idle, .payFail]

/-- Lane state codes (11.3). -/
def LaneState.code : LaneState → Nat
  | .closed => 0 | .ready => 1 | .scanning => 2 | .paying => 3 | .closingScan => 4 | .closingPay => 5

/-- Limit codes (11.3). -/
def LimitCode.code : LimitCode → Nat
  | .itemCount => 1 | .value => 2 | .weight => 3

/-- HELP sources as a bit field (11.3). -/
def HelpSources.code (h : HelpSources) : Nat :=
  (if h.screen then 1 else 0) + (if h.button then 2 else 0) + (if h.limit then 4 else 0)

/-- Lamp codes (11.1). -/
def Lamp.code : Lamp → Nat
  | .off => 0 | .green => 1 | .amber => 2 | .red => 3

/-- Directive message codes (11.4). -/
def Message.code : Message → Nat
  | .none => 0 | .laneClosed => 1 | .badgeRefused => 2 | .badgeRequired => 3 | .levelTooLow => 4
  | .attendantPresent => 5 | .removeItem => 6 | .placeItem => 7 | .waitAssist => 8 | .callNoted => 9

/-- The directive message that a refusal message is (R46). -/
def RefusalMsg.message : RefusalMsg → Message
  | .badgeRefused => .badgeRefused | .badgeRequired => .badgeRequired | .levelTooLow => .levelTooLow

/-- Badge levels as numbers (R113). -/
def Level.code : Level → Nat
  | .one => 1 | .two => 2

/-- Link state codes of drops (11.3). -/
def LinkState.code : LinkState → Nat
  | .online => 0 | .silent => 1 | .offline => 2

/-- Edge codes (11.2). -/
def Edge.code : Edge → Nat
  | .rise => 0 | .fall => 1 | .both => 2

/-- Cause codes (11.3). -/
def Cause.code : Cause → Nat
  | .noneYet => 0 | .offer => 1 | .withdrawn => 2 | .recalled => 3 | .resolved => 4
  | .laneEnded => 5 | .loggedOff => 6 | .claimed => 7

/-- Bank state codes (11.3). -/
def BankState.code : BankState → Nat
  | .empty => 0 | .loading => 1 | .invalid => 2 | .ready => 3 | .current => 4

/-- Channel state codes (11.3). -/
def ChanState.code : ChanState → Nat
  | .disabled => 0 | .pending => 1 | .opened => 2

/-- Line state codes (11.3). -/
def LineState.code : LineState → Nat
  | .active => 0 | .quiet => 1 | .waking => 2

/-- Reset cause codes (11.3). -/
def ResetCause.code : ResetCause → Nat
  | .power => 0 | .pin => 1 | .request => 2

/-- Outcome codes (11.3). -/
def Answer.code : Answer → Nat
  | .done => 0 | .badArgument => 1 | .badState => 2 | .notFound => 3 | .taken => 4 | .full => 5
  | .bankPinned => 6 | .loadConflict => 7 | .countMismatch => 8 | .noTables => 9
  | .presenceRequired => 10

/-- Record state codes (11.3). -/
def RecState.code : RecState → Nat
  | .waiting => 0 | .offered _ _ => 1 | .claimed _ => 2 | .attending _ => 3

/-- Console state codes (11.3). -/
def ConsoleState.code : ConsoleState → Nat
  | .absent => 0 | .free => 1 | .offered _ => 2 | .busy _ => 3

/-- Attention round codes: 0 to 5 active with that next drop, 6 inactive, 7 due (R194). -/
def Attention.code : Attention → Nat
  | .active d => d.1 | .inactive => 6 | .due => 7

/-- Item sources by the kind code of their frame (2.1, 11.1; log 15). -/
def ItemSource.code : ItemSource → Nat
  | .scan => 1 | .weigh => 2

/-! ## Annotations (R163, 11.3) -/

/-- The annotation set with bit `n` only. -/
def anno (n : Nat) : AnnoSet := BitVec.ofNat 10 (2 ^ n)
/-- GAP -/
def annGap : AnnoSet := anno 0
/-- DEFERRED -/
def annDeferred : AnnoSet := anno 1
/-- CLOSED_LANE -/
def annClosedLane : AnnoSet := anno 2
/-- OUT_OF_ORDER -/
def annOutOfOrder : AnnoSet := anno 3
/-- MISMATCH -/
def annMismatch : AnnoSet := anno 4
/-- LIMIT -/
def annLimit : AnnoSet := anno 5
/-- UNKNOWN_GROUP -/
def annUnknownGroup : AnnoSet := anno 6
/-- DONE -/
def annDone : AnnoSet := anno 7
/-- REFUSED -/
def annRefused : AnnoSet := anno 8
/-- UNRESOLVED_AT_END -/
def annUnresolved : AnnoSet := anno 9

/-- The set holding one reason (R194). -/
def reasonBit (r : Reason) : ReasonSet := BitVec.ofNat 10 (2 ^ r.ix.1)

end Sys2Proof.Machine
end

