-- ==== Sys2Proof/Machine/Flags.lean ====
section
/-! DEFINITION. Conditions computed from a lane: classes and holds (R29, R39), the directive word (R45,
R46, R48), tolerance (1.6), and the setting of notice flags and counters. -/

namespace Sys2Proof.Machine

/-! ## Counters and flag sets -/

/-- A counter raised by `n`: 16 bits, saturating at 65,535 (R1). -/
def bump (c : Counter) (n : Nat := 1) : Counter := min (c + n) Config.maxCounter

/-- A lane's bit. -/
def laneBit (l : LaneIx) : LaneSet := BitVec.ofNat 24 (2 ^ l.1)

/-- A lane set with a lane added. -/
def addLane (s : LaneSet) (l : LaneIx) : LaneSet := s ||| laneBit l

/-- A lane set with a lane taken out. -/
def dropLane (s : LaneSet) (l : LaneIx) : LaneSet := s &&& ~~~(laneBit l)

/-- Membership in a lane set. -/
def hasLane (s : LaneSet) (l : LaneIx) : Bool := s.getLsbD l.1

/-- A console set with a console added. -/
def addConsole (s : ConsoleSet) (c : ConsoleIx) : ConsoleSet := s ||| BitVec.ofNat 4 (2 ^ c.1)

/-- Membership in a console set. -/
def hasConsole (s : ConsoleSet) (c : ConsoleIx) : Bool := s.getLsbD c.1

/-! ## Reasons (R29, R39) -/

/-- Classes of reasons (R29). -/
inductive ReasonClass where
  | blocking | gating | advisory
deriving DecidableEq, Repr

/-- The class of a reason (R29). -/
def Reason.cls : Reason → ReasonClass
  | .help => .advisory | .weight => .blocking | .age => .gating | .void => .blocking
  | .watch => .blocking | .highValue => .gating | .lostFrame => .blocking | .link => .blocking
  | .idle => .advisory | .payFail => .advisory

/-- The fixed presence need of a reason (R29). -/
def Reason.needsPresence : Reason → Bool
  | .age | .void | .watch => true
  | .help | .weight | .highValue | .lostFrame | .link | .idle | .payFail => false

/-- HELP and LINK outlive a transaction and may be raised at a CLOSED lane (R11, R34). -/
def Reason.outlives : Reason → Bool
  | .help | .link => true
  | .weight | .age | .void | .watch | .highValue | .lostFrame | .idle | .payFail => false

/-- A class forbids a frame kind (R39). -/
def ReasonClass.forbids : ReasonClass → FrameKind → Bool
  | .blocking, k => k.deferrable
  | .gating, k => k == .total
  | .advisory, _ => false

/-- A lane has a transaction in SCANNING, PAYING and CLOSING (R1). -/
def LaneState.inTxn : LaneState → Bool
  | .closed | .ready => false
  | .scanning | .paying | .closingScan | .closingPay => true

/-- SCANNING, CLOSING_SCAN included (R4). -/
def LaneState.isScanning : LaneState → Bool
  | .scanning | .closingScan => true
  | .closed | .ready | .paying | .closingPay => false

/-- PAYING, CLOSING_PAY included (R4). -/
def LaneState.isPaying : LaneState → Bool
  | .paying | .closingPay => true
  | .closed | .ready | .scanning | .closingScan => false

/-- CLOSING, in either phase (R4). -/
def LaneState.isClosing : LaneState → Bool
  | .closingScan | .closingPay => true
  | .closed | .ready | .scanning | .paying => false

/-- The entry of a reason in the raised set, if it is raised (R31). -/
def Lane.entry (x : Lane) (r : Reason) : Option Raised := x.raised[r.ix]

/-- A reason is raised. -/
def Lane.has (x : Lane) (r : Reason) : Bool := (x.entry r).isSome

/-- The raised reasons, in the order of R29. -/
def Lane.reasons (x : Lane) : List Reason := allReasons.filter x.has

/-- The raised reasons as a set. -/
def reasonSet (rs : List Reason) : ReasonSet := rs.foldl (fun s r => s ||| reasonBit r) 0

/-- Some raised reason is of a class. -/
def Lane.hasClass (x : Lane) (c : ReasonClass) : Bool := x.reasons.any (fun r => r.cls == c)

/-- A kind is forbidden by the lane's present reasons; none is forbidden while the lane is CLOSED
(R39). -/
def Lane.forbids (x : Lane) (k : FrameKind) : Bool :=
  x.state != .closed && x.reasons.any (fun r => r.cls.forbids k)

/-- A raise of this reason has an effect at a lane in this state (R34). -/
def mayCarry (st : LaneState) (r : Reason) : Bool := st != .closed || r.outlives

/-! ## The directive word (R45, R46, R48) -/

/-- The lamp (R45). -/
def Lane.lamp (x : Lane) : Lamp :=
  if x.state = .closed then .off
  else if x.hasClass .blocking then .red
  else if x.reasons.isEmpty then .green
  else .amber

/-- The pause flag, derived alike in every lane state (R45). -/
def Lane.pause (x : Lane) : Bool :=
  x.hasClass .blocking || x.deferred.length == Config.maxDeferred || x.refusalMark

/-- The sign of WEIGHT's present detail, where WEIGHT is raised: greater than 0 or not (R46). -/
def Lane.weightAbove (x : Lane) : Option Bool :=
  (x.entry .weight).map fun e =>
    match e.detail with
    | some (.grams d) => decide (0 < d)
    | _ => false

/-- The directive message: the first that applies (R46). -/
def Lane.message (x : Lane) : Message :=
  if x.state = .closed then .laneClosed
  else match x.refusal with
  | some m => m.message
  | none =>
    if x.session.isSome then .attendantPresent
    else if x.weightAbove = some true then .removeItem
    else if x.bagSettle.isSome || x.has .weight then .placeItem
    else if x.hasClass .blocking || x.hasClass .gating then .waitAssist
    else if x.has .help then .callNoted
    else .none

/-- The next generation after `g`, counted modulo 8, that is neither the echoed generation nor that of
the last DIRECT (R48). -/
def nextGen (g : Gen) (echo lastDirect : Option Gen) : Gen :=
  let ok (x : Gen) : Bool := echo != some x && lastDirect != some x
  if ok (g + 1) then g + 1 else if ok (g + 2) then g + 2 else g + 3

/-- The lane with its directive word derived again; `force` advances the generation even when the word
is the same (R48, lane reset). -/
def Lane.derive (force : Bool) (x : Lane) : Lane :=
  let w := x.word
  if force = false ∧ w.lamp = x.lamp ∧ w.pause = x.pause ∧ w.message = x.message then x
  else { x with word := { lamp := x.lamp, pause := x.pause, message := x.message
                          gen := nextGen w.gen x.echo x.lastDirect } }

/-! ## Weight (1.6) -/

/-- D, the signed difference of the last stable reading and the expected weight (R24). -/
def diff (m e : Nat) : Int := (m : Int) - (e : Int)

/-- A reading is in tolerance when |D| is at most the base tolerance plus T (1.6). -/
def inTolerance (baseTol t m e : Nat) : Bool := (diff m e).natAbs ≤ baseTol + t

end Sys2Proof.Machine
end

