-- ==== Sys2Proof/Machine/Ops.lean ====
section
/-! DEFINITION. Shared operations over lists, timers, the reference tables, the lanes, the frame pool and
the notice flags. -/

namespace Sys2Proof.Machine

/-! ## Lists in an order -/

/-- Insert before the first element that `x` goes before. -/
def insertBy {α : Type} (before : α → α → Bool) (x : α) : List α → List α
  | [] => [x]
  | y :: ys => if before x y then x :: y :: ys else y :: insertBy before x ys

/-- A list put in the order `before` gives. -/
def sortBy {α : Type} (before : α → α → Bool) (xs : List α) : List α :=
  xs.foldr (insertBy before) []

/-- `n` applications of `g`. -/
def times {α : Type} (g : α → α) : Nat → α → α
  | 0, a => a
  | n + 1, a => times g n (g a)

/-! ## Tables keyed by a code: lists with rising keys (log 13) -/

/-- The entry of a key. -/
def findKey {α : Type} (k : Nat) : List (Nat × α) → Option α
  | [] => none
  | (j, a) :: rest => if j = k then some a else findKey k rest

/-- The entry of a key written, an entry with the same key replaced. -/
def putKey {α : Type} (k : Nat) (a : α) : List (Nat × α) → List (Nat × α)
  | [] => [(k, a)]
  | (j, b) :: rest =>
    if k < j then (k, a) :: (j, b) :: rest
    else if k = j then (k, a) :: rest
    else (j, b) :: putKey k a rest

/-- The entry of a key taken out. -/
def dropKey {α : Type} (k : Nat) (xs : List (Nat × α)) : List (Nat × α) :=
  xs.filter (fun p => p.1 != k)

/-- Keys strictly rising. -/
def risingKeys {α : Type} : List (Nat × α) → Bool
  | [] => true
  | [_] => true
  | (j, _) :: (k, b) :: rest => decide (j < k) && risingKeys ((k, b) :: rest)

/-! ## Timers (R174, log 3) -/

/-- A timer one tick later. -/
def tickTimer (t : Timer) : Timer := t.map (· - 1)

/-- An expiry is due: the count has reached 0. -/
def timerDue (t : Timer) : Bool := t == some 0

/-- The remains of a timer as a read shows them: 0 for stopped, never 0 for a running one (R176,
R194, log 4). -/
def remains (t : Timer) : Nat :=
  match t with
  | none => 0
  | some n => max n 1

/-- The escalation interval of a priority as a started timer; none at class 3 (R56). -/
def escalStart (p : Params) (current : Fin 4) : Timer :=
  match current with
  | 0 => some p.escal0
  | 1 => some p.escal1
  | 2 => some p.escal2
  | 3 => none

/-! ## What lane processing reads -/

/-- What the lane engine reads besides the floor: tables, parameters, kind-to-channel map and store
time. -/
structure Env where
  tables : Tables
  params : Params
  map    : ChanMap
  now    : Stamp

/-- The lane engine's view of the part. -/
def State.env (s : State) : Env :=
  { tables := s.tables, params := s.params, map := s.map, now := s.storeTime }

/-! ## Reference tables (R100 to R103) -/

/-- A bank of the tables. -/
def Tables.bank (t : Tables) (bk : BankId) : Bank :=
  match bk with
  | .a => t.bankA
  | .b => t.bankB

/-- The tables with a bank replaced. -/
def Tables.setBank (t : Tables) (bk : BankId) (x : Bank) : Tables :=
  match bk with
  | .a => { t with bankA := x }
  | .b => { t with bankB := x }

/-- The other bank. -/
def BankId.other : BankId → BankId
  | .a => .b
  | .b => .a

/-- The bank that is CURRENT (R103). -/
def Tables.current (t : Tables) : Option BankId :=
  if t.bankA.state = .current then some .a
  else if t.bankB.state = .current then some .b
  else none

/-- The bank that is LOADING (R103). -/
def Tables.loading (t : Tables) : Option BankId :=
  if t.bankA.state = .loading then some .a
  else if t.bankB.state = .loading then some .b
  else none

/-- The group entry of a code; none where the entry is invalid (R100, R102). -/
def Bank.group (b : Bank) (code : BitVec 16) : Option GroupEntry := findKey code.toNat b.groups

/-- The watch entry of an article code (R101, R102). -/
def Bank.watched (b : Bank) (a : Article) : Option WatchEntry := findKey a.toNat b.watch

/-- The badge list's level of a badge (R113). -/
def Tables.level (t : Tables) (n : BadgeNo) : Option Level := findKey n.toNat t.badges

/-! ## Lanes -/

/-- A lane context. -/
def Floor.lane (f : Floor) (l : LaneIx) : Lane := f.lanes[l]

/-- The floor with a lane context replaced. -/
def Floor.setLane (f : Floor) (l : LaneIx) (x : Lane) : Floor :=
  { f with lanes := upd f.lanes l x }

/-- The floor with a lane context changed. -/
def Floor.modLane (f : Floor) (l : LaneIx) (g : Lane → Lane) : Floor := f.setLane l (g (f.lane l))

/-- The lane takes part in the present event: its directive word is derived at the end (R48). -/
def Floor.touch (f : Floor) (l : LaneIx) : Floor := { f with touched := addLane f.touched l }

/-- The lane's LANE notice pending flag is set (R188); the lane takes part in the event. -/
def Floor.flag (f : Floor) (l : LaneIx) : Floor :=
  { f with laneFlags := addLane f.laneFlags l, touched := addLane f.touched l }

/-- The lane of a drop: line × 6 + drop (0.3). -/
def laneOf (n : LineIx) (d : DropIx) : LaneIx := ⟨n.1 * 6 + d.1, by omega⟩

/-- The line of a lane (0.6). -/
def lineOf (l : LaneIx) : LineIx := ⟨l.1 / 6, by omega⟩

/-- The number of lanes whose present transaction started on a bank (R104). -/
def Floor.pinCount (f : Floor) (bk : BankId) : Nat :=
  (allLanes.filter (fun l => (f.lane l).pinned == some bk)).length

/-- The lane enters a state: a change sets its LANE notice flag (R4). -/
def Floor.enter (f : Floor) (l : LaneIx) (st : LaneState) : Floor :=
  let g := f.setLane l { f.lane l with state := st }
  if (f.lane l).state = st then g.touch l else g.flag l

/-! ## The frame pool (R151) -/

/-- A buffer returns to the tail of the free list (R151). -/
def Floor.giveBack (f : Floor) (b : BufId) : Floor := { f with free := f.free ++ [b] }

/-- The whole deferred list of a lane is freed and counted (R44). That its buffers join the free list head
first is the model's choice (log 31). -/
def Floor.freeDeferred (f : Floor) (l : LaneIx) : Floor :=
  let x := f.lane l
  let g := f.setLane l
    { x with deferred := []
             counters := { x.counters with freed := bump x.counters.freed x.deferred.length } }
  { g with free := g.free ++ x.deferred.map (·.buf) }

/-! ## Channels (R146, R159) -/

/-- The traffic channel of a kind, by the map as it stands (R162). -/
def Env.chanOf (e : Env) (k : FrameKind) : Option ChanIx := e.map[k.ix]

/-- A frame of this kind that is processed now has the room R146 asks for. -/
def Floor.room (f : Floor) (e : Env) (k : FrameKind) : Bool :=
  match e.chanOf k with
  | none => true
  | some c => f.chans[c].state == .disabled || decide (f.chans[c].queue.length < Config.maxQueue)

/-- The floor with a channel record changed. -/
def Floor.modChan (f : Floor) (c : ChanIx) (g : Channel → Channel) : Floor :=
  { f with chans := upd f.chans c (g f.chans[c]) }

/-! ## The state -/

/-- The PART notice pending flag is set (R188). -/
def State.flagPart (s : State) : State := { s with notices := { s.notices with part := true } }

/-- A drop's LINE notice pending flag is set (R188). -/
def State.flagLine (s : State) (l : LaneIx) : State :=
  { s with notices := { s.notices with line := addLane s.notices.line l } }

/-- The state with a line record changed. -/
def State.modLine (s : State) (n : LineIx) (g : Line → Line) : State :=
  { s with lines := upd s.lines n (g s.lines[n]) }

/-- The link is UP while the filtered LINK_OK level is high (R156). -/
def State.linkUp (s : State) : Bool := s.link.level == some true

end Sys2Proof.Machine
end

