-- ==== Sys2Proof/Machine/Queue.lean ====
section
/-! DEFINITION. The intervention queue and the dispatcher (chapter 3): records, queue order, offers,
dispatch, the exhaustion check, and what presence and link loss do to records. -/

namespace Sys2Proof.Machine

/-! ## Records and their order -/

/-- The record in a slot. -/
def Desk.recAt (d : Desk) (k : SlotIx) : Option Record := d.slots[k].rec?

/-- The desk with the record in a slot changed, if the slot holds one. -/
def Desk.modRec (d : Desk) (k : SlotIx) (g : Record → Record) : Desk :=
  { d with slots := upd d.slots k { d.slots[k] with rec? := d.slots[k].rec?.map g } }

/-- A roster entry. -/
def Desk.console (d : Desk) (c : ConsoleIx) : Console := d.consoles[c]

/-- The desk with a roster entry changed. -/
def Desk.modConsole (d : Desk) (c : ConsoleIx) (g : Console → Console) : Desk :=
  { d with consoles := upd d.consoles c (g (d.console c)) }

/-- `a` goes before `b` in the queue order (R52). -/
def Record.before (a b : Record) : Bool :=
  if a.current ≠ b.current then decide (b.current < a.current)
  else if a.stamp ≠ b.stamp then decide (a.stamp < b.stamp)
  else if a.lane ≠ b.lane then decide (a.lane < b.lane)
  else decide (a.reason.ix < b.reason.ix)

/-- The records with their slots, by slot. -/
def Desk.records (d : Desk) : List (SlotIx × Record) :=
  allSlots.filterMap (fun k => (d.recAt k).map (fun r => (k, r)))

/-- The records with their slots, in queue order (R52). -/
def Desk.queue (d : Desk) : List (SlotIx × Record) :=
  sortBy (fun a b => a.2.before b.2) d.records

/-- The slot of the record of a lane and reason. -/
def Desk.find (d : Desk) (l : LaneIx) (r : Reason) : Option SlotIx :=
  allSlots.find? (fun k =>
    match d.recAt k with
    | some x => x.lane == l && x.reason == r
    | none => false)

/-- The lowest-numbered free slot (R51). -/
def Desk.freeSlot (d : Desk) : Option SlotIx := allSlots.find? (fun k => (d.recAt k).isNone)

/-- The record a raise makes (R53). -/
def newRecord (p : Params) (l : LaneIx) (r : Reason) (stamp : Stamp) (detail : Option Detail)
    (session : Bool) : Record :=
  { lane := l, reason := r, base := p.base[r.ix], current := p.base[r.ix], stamp := stamp
    state := if session then .attending none else .waiting
    needsPresence := r.needsPresence
    detail := detail
    escal := if session then none else escalStart p p.base[r.ix] }

/-- A record inserted into the lowest free slot; none where every slot is in use (R51, R53). A record
that enters WAITING makes dispatch run. -/
def Desk.insert (d : Desk) (p : Params) (l : LaneIx) (r : Reason) (stamp : Stamp)
    (detail : Option Detail) (session : Bool) : Option Desk :=
  d.freeSlot.map fun k =>
    { d with slots := upd d.slots k
               { d.slots[k] with rec? := some (newRecord p l r stamp detail session) }
             dispatchDue := d.dispatchDue || !session }

/-! ## Consoles (R58 to R61) -/

/-- A console is present: FREE, OFFERED or BUSY (R62). -/
def Desk.present (d : Desk) (c : ConsoleIx) : Bool := (d.console c).state != .absent

/-- A console's snapshot is marked pending with a cause (R60). -/
def Desk.mark (d : Desk) (c : ConsoleIx) (cause : Cause) : Desk :=
  d.modConsole c (fun x => { x with pending := true, cause := cause })

/-- A console enters FREE at the tail of the free order; dispatch is due (R59, R62). -/
def Desk.toFree (d : Desk) (c : ConsoleIx) : Desk :=
  { d.modConsole c (fun x => { x with state := .free }) with
      freeOrder := d.freeOrder ++ [c], dispatchDue := true }

/-- A console enters FREE with its snapshot marked (R60). -/
def Desk.freeWith (d : Desk) (c : ConsoleIx) (cause : Cause) : Desk := (d.toFree c).mark c cause

/-- A console returns from an offer not yet sent, as though the offer had never been made (R61). -/
def Desk.freeUnsent (d : Desk) (c : ConsoleIx) : Desk :=
  (d.toFree c).modConsole c fun x =>
    match x.saved with
    | some (pending, cause) => { x with pending := pending, cause := cause, saved := none }
    | none => x

/-- A console's offer is taken away: with its snapshot marked if the offer had been sent, by R61 if
not. -/
def Desk.unofferTo (d : Desk) (c : ConsoleIx) (sent : Bool) (cause : Cause) : Desk :=
  if sent then d.freeWith c cause else d.freeUnsent c

/-! ## Changes of records -/

/-- A record returns to WAITING from OFFERED; its escalation timer keeps running (R56). -/
def Record.unoffered (r : Record) : Record := { r with state := .waiting, offer := none }

/-- A record returns to WAITING from CLAIMED or ATTENDING; its escalation timer starts (R56). -/
def Record.unclaimed (p : Params) (r : Record) : Record :=
  { r with state := .waiting, claim := none, offer := none, escal := escalStart p r.current }

/-- A rise of one class (R57, R175). -/
def Record.rise (p : Params) (r : Record) : Record :=
  if r.current = 3 then r
  else
    { r with current := r.current + 1
             escal := match r.state with
               | .waiting | .offered _ _ => escalStart p (r.current + 1)
               | .claimed _ | .attending _ => r.escal }

/-- A record ends: its timers stop with it, the console it names is freed, its slot becomes free with
the next issue, and a freed slot is owed an insertion (R51, R54, R77). -/
def Desk.endRecord (d : Desk) (k : SlotIx) (cause : Cause) : Desk :=
  match d.recAt k with
  | none => d
  | some r =>
    let d1 := match r.state with
      | .waiting | .attending none => d
      | .offered c sent => d.unofferTo c sent cause
      | .claimed c | .attending (some c) => d.freeWith c cause
    { d1 with slots := upd d1.slots k { issue := d1.slots[k].issue + 1, rec? := none }
              freedSlots := d1.freedSlots + 1 }

/-! ## Dispatch (R62, R63) and the exhaustion check (R64) -/

/-- A console's zone. -/
def zoneHolds (zones : Vector LaneSet 4) (c : ConsoleIx) (l : LaneIx) : Bool := hasLane zones[c] l

/-- A lane is covered: some present console's zone holds it (R62). -/
def Desk.covered (d : Desk) (zones : Vector LaneSet 4) (l : LaneIx) : Bool :=
  allConsoles.any (fun c => d.present c && zoneHolds zones c l)

/-- A FREE console qualifies for a WAITING record (R62). -/
def Desk.qualifies (d : Desk) (zones : Vector LaneSet 4) (r : Record) (c : ConsoleIx) : Bool :=
  !hasConsole r.declined c && (zoneHolds zones c r.lane || !d.covered zones r.lane)

/-- An offer of a WAITING record to a FREE console (R63). -/
def Desk.offer (d : Desk) (k : SlotIx) (c : ConsoleIx) : Desk :=
  let d1 := d.modRec k (fun r => { r with state := .offered c false })
  let d2 := d1.modConsole c (fun x =>
    { x with state := .offered k, saved := some (x.pending, x.cause)
             pending := true, cause := .offer })
  { d2 with freeOrder := d2.freeOrder.filter (· != c) }

/-- Dispatch: each WAITING record in queue order is offered to the first qualifying console of the free
order (R62). -/
def Desk.dispatch (d : Desk) (zones : Vector LaneSet 4) : Desk :=
  (d.queue.filter (fun kr => kr.2.state == .waiting)).foldl
    (fun d kr =>
      match d.freeOrder.find? (d.qualifies zones kr.2) with
      | some c => d.offer kr.1 c
      | none => d)
    { d with dispatchDue := false }

/-- The eligible consoles of a record's lane (R64). -/
def Desk.eligible (d : Desk) (zones : Vector LaneSet 4) (l : LaneIx) : List ConsoleIx :=
  let inZone := allConsoles.filter (fun c => d.present c && zoneHolds zones c l)
  if inZone.isEmpty then allConsoles.filter d.present else inZone

/-- Every eligible console, and at least one, is in the declined set (R64). -/
def Desk.exhausted (d : Desk) (zones : Vector LaneSet 4) (r : Record) : Bool :=
  let el := d.eligible zones r.lane
  !el.isEmpty && el.all (hasConsole r.declined)

/-- The exhaustion check on the record of a slot: a cleared declined set makes dispatch run, and the
record rises one class where `rise` says so (R64). -/
def Desk.checkExhausted (d : Desk) (p : Params) (zones : Vector LaneSet 4) (rise : Bool) (k : SlotIx) :
    Desk :=
  match d.recAt k with
  | none => d
  | some r =>
    if d.exhausted zones r then
      { d.modRec k (fun r =>
          let r' := { r with declined := 0 }
          if rise then r'.rise p else r') with dispatchDue := true }
    else d

/-- The exhaustion check on every WAITING record, without a rise (R64). -/
def Desk.checkWaiting (d : Desk) (p : Params) (zones : Vector LaneSet 4) : Desk :=
  allSlots.foldl
    (fun d k =>
      match d.recAt k with
      | some r => if r.state = .waiting then d.checkExhausted p zones false k else d
      | none => d) d

/-! ## Presence at a lane (R75, R76) and closing of a lane (R55) -/

/-- A lane's record enters ATTENDING as a session opens (R75). -/
def Desk.attend (d : Desk) (k : SlotIx) (r : Record) : Desk :=
  let put (d : Desk) (by_ : Option ConsoleIx) : Desk :=
    d.modRec k (fun r =>
      { r with state := .attending by_, escal := none, offer := none, claim := none })
  match r.state with
  | .waiting => put d none
  | .offered c sent => put (d.unofferTo c sent .withdrawn) none
  | .claimed c => put d (some c)
  | .attending _ => d

/-- A lane's ATTENDING record returns to CLAIMED or WAITING as the session closes (R76). -/
def Desk.unattend (d : Desk) (p : Params) (k : SlotIx) (r : Record) : Desk :=
  match r.state with
  | .attending (some c) =>
    d.modRec k (fun r => { r with state := .claimed c, claim := some p.claim })
  | .attending none =>
    { d.modRec k (fun r => r.unclaimed p) with dispatchDue := true }
  | .waiting | .offered _ _ | .claimed _ => d

/-- The records of a lane in queue order. -/
def Desk.ofLane (d : Desk) (l : LaneIx) : List (SlotIx × Record) :=
  d.queue.filter (fun kr => kr.2.lane == l)

/-- A session opens at a lane: its records enter ATTENDING (R75, log 20). -/
def Desk.sessionOpened (d : Desk) (l : LaneIx) : Desk :=
  (d.ofLane l).foldl (fun d kr => d.attend kr.1 kr.2) d

/-- A session closes at a lane: its ATTENDING records go back, in queue order (R76). -/
def Desk.sessionClosed (d : Desk) (p : Params) (l : LaneIx) : Desk :=
  (d.ofLane l).foldl (fun d kr => d.unattend p kr.1 kr.2) d

/-- A presence need acquired through REFER is cleared on the records of a lane that closes (R9, R55). -/
def Desk.clearReferred (d : Desk) (l : LaneIx) : Desk :=
  (d.ofLane l).foldl
    (fun d kr => d.modRec kr.1 (fun r => { r with needsPresence := r.reason.needsPresence })) d

/-! ## Link loss (R78) -/

/-- A record at link loss (R78). -/
def Record.linkLost (p : Params) (r : Record) : Record :=
  match r.state with
  | .waiting => r
  | .offered _ _ => r.unoffered
  | .claimed _ => r.unclaimed p
  | .attending _ => { r with state := .attending none }

/-- Every present console is taken out of the roster (R78). -/
def Desk.linkLost (d : Desk) (p : Params) : Desk :=
  let d1 := allSlots.foldl (fun d k => d.modRec k (Record.linkLost p)) d
  let d2 := allConsoles.foldl (fun d c =>
    d.modConsole c (fun x => { x with state := .absent, pending := false, saved := none })) d1
  { d2 with freeOrder := [], dispatchDue := true }

end Sys2Proof.Machine
end

