-- ==== Sys2Proof/Machine/Reasons.lean ====
section
/-! DEFINITION. Raising, merging, resolving and removing reasons (R32 to R38), insertion into freed slots
(R54), presence sessions (R83 to R85), and the end of a transaction (R9, R11). -/

namespace Sys2Proof.Machine

/-! ## Unqueued reasons (R54) -/

/-- An unqueued raised reason of a lane. -/
structure Unqueued where
  lane   : LaneIx
  reason : Reason
  entry  : Raised
  base   : Fin 4
deriving DecidableEq, Repr

/-- `a` is taken by a freed slot before `b` (R54). -/
def Unqueued.before (a b : Unqueued) : Bool :=
  if a.base ≠ b.base then decide (b.base < a.base)
  else if a.entry.stamp ≠ b.entry.stamp then decide (a.entry.stamp < b.entry.stamp)
  else if a.lane ≠ b.lane then decide (a.lane < b.lane)
  else decide (a.reason.ix < b.reason.ix)

/-- The unqueued raised reasons of all lanes, in the order in which freed slots take them (R54). -/
def Floor.unqueued (f : Floor) (p : Params) : List Unqueued :=
  sortBy Unqueued.before <|
    allLanes.flatMap fun l =>
      allReasons.filterMap fun r =>
        match (f.lane l).entry r with
        | some en =>
          if en.queued then none
          else some { lane := l, reason := r, entry := en, base := p.base[r.ix] }
        | none => none

/-- The lane with the entry of a reason replaced. -/
def Lane.setEntry (x : Lane) (r : Reason) (en : Option Raised) : Lane :=
  { x with raised := upd x.raised r.ix en }

/-- One freed slot takes the first unqueued reason, if there is one (R54). -/
def Floor.insertBest (p : Params) (f : Floor) : Floor :=
  match (f.unqueued p).head? with
  | none => f
  | some u =>
    match f.desk.insert p u.lane u.reason u.entry.stamp u.entry.detail
        (f.lane u.lane).session.isSome with
    | none => f
    | some d =>
      { f.modLane u.lane (fun x => x.setEntry u.reason (some { u.entry with queued := true })) with
          desk := d }

/-- The insertions that the record ends of the present event owe: one for each freed slot (R54). -/
def Floor.insertions (p : Params) (f : Floor) : Floor :=
  let g := times (Floor.insertBest p) f.desk.freedSlots f
  { g with desk := { g.desk with freedSlots := 0 } }

/-! ## Raises (R32 to R35) -/

/-- A source added to the HELP sources. -/
def HelpSources.add (h : HelpSources) (src : Option HelpSource) : HelpSources :=
  match src with
  | none => h
  | some .screen => { h with screen := true }
  | some .button => { h with button := true }
  | some .limit => { h with limit := true }

/-- A merge with an entry already in the raised set (R33). -/
def Floor.merge (l : LaneIx) (r : Reason) (en : Raised) (detail : Option Detail)
    (src : Option HelpSource) (f : Floor) : Floor :=
  let en' : Raised := { en with detail := detail.or en.detail }
  let g := (f.modLane l (fun x =>
    { x.setEntry r (some en') with help := x.help.add src })).flag l
  if en.queued ∧ detail.isSome then
    match g.desk.find l r with
    | some k => { g with desk := g.desk.modRec k (fun x => { x with detail := detail }) }
    | none => g
  else g

/-- A new raise (R32, R53). -/
def Floor.raiseNew (e : Env) (l : LaneIx) (r : Reason) (detail : Option Detail)
    (src : Option HelpSource) (f : Floor) : Floor :=
  let put (queued : Bool) : Floor :=
    (f.modLane l (fun x =>
      { x.setEntry r (some { stamp := e.now, queued := queued, detail := detail }) with
          help := if r = .help then HelpSources.add {} src else x.help })).flag l
  match f.desk.insert e.params l r e.now detail (f.lane l).session.isSome with
  | some d => { put true with desk := d }
  | none => { put false with
      desk := { f.desk with unqueuedRaises := bump f.desk.unqueuedRaises } }

/-- A raise of a reason (R32 to R34). Insertions owed by record ends made before it in the same event
run first (R54). -/
def Floor.raise (e : Env) (l : LaneIx) (r : Reason) (detail : Option Detail)
    (src : Option HelpSource) (f : Floor) : Floor :=
  let g := f.insertions e.params
  if mayCarry (g.lane l).state r then
    match (g.lane l).entry r with
    | some en => g.merge l r en detail src
    | none => g.raiseNew e l r detail src
  else g

/-! ## Resolutions and removals (R36, R37) -/

/-- A lane without a reason: with HELP go its sources and the call input's pending flag (R35). -/
def Lane.without (x : Lane) (r : Reason) : Lane :=
  let y := x.setEntry r none
  if r = .help then { y with help := {}, call := { y.call with pending := false } } else y

/-- A reason leaves the raised set, its record ends with a cause, and the LANE notice flag is set: a
resolution (steps 1 to 3 of R36) or a removal (R37). A reason that is not raised is left alone. -/
def Floor.takeOut (cause : Cause) (l : LaneIx) (r : Reason) (f : Floor) : Floor :=
  match (f.lane l).entry r with
  | none => f
  | some en =>
    let g := (f.modLane l (fun x => x.without r)).flag l
    if en.queued then
      match g.desk.find l r with
      | some k => { g with desk := g.desk.endRecord k cause }
      | none => g
    else g

/-- A resolution up to its deferred pass (steps 1 to 3 of R36). -/
def Floor.resolve (l : LaneIx) (r : Reason) (f : Floor) : Floor := f.takeOut .resolved l r

/-- The reasons of a list that have records, in queue order, then the others (R77). -/
def Floor.endOrder (f : Floor) (l : LaneIx) (rs : List Reason) : List Reason :=
  let queued := ((f.desk.ofLane l).map (·.2.reason)).filter (fun r => rs.contains r)
  queued ++ rs.filter (fun r => !queued.contains r)

/-- Reasons of a lane are removed (R37). -/
def Floor.removeAll (l : LaneIx) (rs : List Reason) (f : Floor) : Floor :=
  (f.endOrder l rs).foldl (fun f r => f.takeOut .laneEnded l r) f

/-- The raised reasons of a lane that do not outlive a transaction (R11). -/
def Lane.ending (x : Lane) : List Reason := x.reasons.filter (fun r => !r.outlives)

/-! ## Presence sessions (R83 to R85) -/

/-- The lane's session is set with its stamp, and the presence timer started (R83, R85). -/
def Floor.takeSession (e : Env) (l : LaneIx) (n : BadgeNo) (lv : Level) (f : Floor) : Floor :=
  (f.modLane l (fun x =>
    { x with session := some { badge := n, level := lv, opened := e.now }
             presence := some e.params.presence })).flag l

/-- A session opens at a lane (steps 1 to 5 of R83); the insertions and the pass follow. -/
def Floor.openSession (e : Env) (l : LaneIx) (n : BadgeNo) (lv : Level) (f : Floor) : Floor :=
  let g := (f.takeSession e l n lv).modLane l (fun x =>
    { x with inactivity := none, refusal := none, refusalTimer := none })
  let g := g.resolve l .idle
  { g with desk := g.desk.sessionOpened l }

/-- The open session of a lane closes (R84). A lane without a session is left alone. -/
def Floor.closeSession (p : Params) (l : LaneIx) (f : Floor) : Floor :=
  if (f.lane l).session.isSome then
    let g := (f.modLane l (fun x =>
      { x with session := none, presence := none, refusal := none, refusalTimer := none
               inactivity := if x.state.inTxn then some p.inactivity else x.inactivity })).flag l
    { g with desk := g.desk.sessionClosed p l }
  else f

/-! ## Closing a lane and ending a transaction (R9, R11) -/

/-- A lane enters CLOSED (R9). -/
def Floor.enterClosed (l : LaneIx) (f : Floor) : Floor :=
  let g := (f.removeAll l (f.lane l).ending).freeDeferred l
  { g.enter l .closed with desk := g.desk.clearReferred l }

/-- A transaction ends (R11). The removed reasons are the unresolved-at-end set. -/
def Floor.endTxn (l : LaneIx) (f : Floor) : Floor × ReasonSet :=
  let ending := (f.lane l).ending
  let g := f.removeAll l ending
  let g := g.modLane l (fun x => { x with bagSettle := none, inactivity := none })
  let g := g.freeDeferred l
  let g := g.modLane l (fun x => { x with stack := [], pinned := none })
  (if (f.lane l).state.isClosing then g.enterClosed l else g.enter l .ready, reasonSet ending)

end Sys2Proof.Machine
end

