-- ==== Sys2Proof/Machine/LaneEngine.lean ====
section
/-! DEFINITION. The lane transaction engine and the presence unit: what processing a frame does to its
lane (R10, R12 to R27, R82 to R97), the handing on of lane events (R13, R14, R164), and deferred passes
(R41 to R43). -/

namespace Sys2Proof.Machine

/-! ## A frame in processing (R14) -/

/-- Outcomes of processing (R14); `unheard` is an OVERRIDE without a session, which builds no event and
counts nowhere (R90). -/
inductive Verdict where
  | applied | reported | dropped | unheard
deriving DecidableEq, Repr

/-- A frame in processing: the floor so far, what its lane event will carry, its outcome, whether it
resolved a reason, and whether it is a customer frame (R26). -/
structure Proc where
  floor      : Floor
  annos      : AnnoSet := 0
  raised     : ReasonSet := 0
  unresolved : ReasonSet := 0
  verdict    : Verdict := .applied
  resolved   : Bool := false
  customer   : Bool := false

/-- The floor of a frame in processing changed. -/
def Proc.onFloor (p : Proc) (g : Floor → Floor) : Proc := { p with floor := g p.floor }

/-- The lane of a frame in processing changed. -/
def Proc.onLane (l : LaneIx) (g : Lane → Lane) (p : Proc) : Proc :=
  p.onFloor (fun f => f.modLane l g)

/-- An annotation placed on the frame's lane event (R163). -/
def Proc.note (a : AnnoSet) (p : Proc) : Proc := { p with annos := p.annos ||| a }

/-- The frame is reported with an annotation (R14). -/
def Proc.report (a : AnnoSet) (p : Proc) : Proc := { p.note a with verdict := .reported }

/-- The frame is dropped (R14). -/
def Proc.drop (p : Proc) : Proc := { p with verdict := .dropped }

/-- A raise made by the frame's processing: the reason joins the frame's raised set, unless the raise
has no effect (R32 to R34). -/
def Proc.raise (e : Env) (l : LaneIx) (r : Reason) (detail : Option Detail)
    (src : Option HelpSource) (p : Proc) : Proc :=
  { p with
      floor := p.floor.raise e l r detail src
      raised := if mayCarry (p.floor.lane l).state r then p.raised ||| reasonBit r else p.raised }

/-- A resolution made by the frame's processing (R36, R38). -/
def Proc.resolve (l : LaneIx) (r : Reason) (p : Proc) : Proc :=
  if (p.floor.lane l).has r then { p.onFloor (Floor.resolve l r) with resolved := true } else p

/-- The frame is a customer frame (R26). -/
def Proc.byCustomer (p : Proc) : Proc := { p with customer := true }

/-! ## Items (R19 to R22) -/

/-- What a SCAN or WEIGH brings: its line value and the weight it contributes unless exempt. -/
structure ItemFrame where
  article   : Article
  group     : BitVec 16
  quantity  : Nat
  lineValue : Nat
  weight    : Nat
  source    : ItemSource

/-- The flags of an item, combined from the two lookups (R20). -/
structure ItemFlags where
  age       : Bool
  attendant : Bool
  exempt    : Bool
  tol       : Nat
  unknown   : Bool

/-- The two lookups in the lane's pinned bank and their combination (R20, R102). -/
def lookupItem (t : Tables) (pinned : Option BankId) (a : Article) (group : BitVec 16) : ItemFlags :=
  let g := pinned.bind (fun bk => (t.bank bk).group group)
  let w := pinned.bind (fun bk => (t.bank bk).watched a)
  { age := g.any (·.age) || w.any (·.age)
    attendant := g.any (·.attendant) || w.any (·.refer)
    exempt := g.any (·.exempt) || w.any (·.exempt)
    tol := (w.bind (·.tol)).getD ((g.map (·.tol)).getD 0)
    unknown := g.isNone }

/-- The limit check (R19). -/
def limitOf (t : Totals) (lineValue weight : Nat) : Option LimitCode :=
  if Config.maxItems ≤ t.itemCount then some .itemCount
  else if Config.maxValue < t.value + lineValue then some .value
  else if Config.maxExpected < t.expected + weight then some .weight
  else none

/-- How much T rises: the wanted amount, or less where that would carry T above the cap (R21). -/
def tolRise (t wanted cap : Nat) : Nat := min wanted (cap - t)

/-- A push onto the recent item stack (R2). -/
def pushItem (i : Item) (stack : List Item) : List Item := (i :: stack).take Config.maxStack

/-- The addition of an item to the transaction (R21). -/
def Lane.addItem (p : Params) (i : ItemFrame) (fl : ItemFlags) (x : Lane) : Lane :=
  let w := if fl.exempt then 0 else i.weight
  let rise := if fl.exempt then 0 else tolRise x.totals.tolerance (i.quantity * fl.tol) p.toleranceCap
  { x with
      totals := { x.totals with
        value := x.totals.value + i.lineValue
        itemCount := x.totals.itemCount + 1
        expected := x.totals.expected + w
        tolerance := x.totals.tolerance + rise }
      stack := pushItem
        { article := i.article, group := i.group, quantity := i.quantity, lineValue := i.lineValue
          weight := w, tolerance := rise, age := fl.age, source := i.source } x.stack
      bagSettle := if 0 < w then some p.bagSettle else x.bagSettle }

/-- The age check (R22). -/
def Proc.checkAge (e : Env) (l : LaneIx) (i : ItemFrame) (fl : ItemFlags) (p : Proc) : Proc :=
  if fl.age && !(p.floor.lane l).totals.ageApproved then
    (p.onLane l (fun x =>
      { x with totals := { x.totals with ageCount := x.totals.ageCount + 1 } })).raise e l .age
        (some (.article i.article)) none
  else p

/-- The high-value check (R22). -/
def Proc.checkValue (e : Env) (l : LaneIx) (p : Proc) : Proc :=
  let t := (p.floor.lane l).totals
  if e.params.highLimit ≠ 0 ∧ e.params.highLimit ≤ t.value ∧ t.highRaised = false then
    (p.raise e l .highValue (some (.cents t.value)) none).onLane l (fun x =>
      { x with totals := { x.totals with highRaised := true } })
  else p

/-- Item processing (R19 to R22). That WATCH is raised before AGE and HIGH_VALUE, which decides the record
slots they take, is the model's choice (log 30). -/
def Proc.item (e : Env) (l : LaneIx) (i : ItemFrame) (p : Proc) : Proc :=
  let x := p.floor.lane l
  let fl := lookupItem e.tables x.pinned i.article i.group
  match limitOf x.totals i.lineValue (if fl.exempt then 0 else i.weight) with
  | some c => (p.report annLimit).raise e l .help (some (.limit c)) (some .limit)
  | none =>
    let p := if fl.unknown then p.note annUnknownGroup else p
    let p := if fl.attendant || fl.unknown then
        p.raise e l .watch (some (.article i.article)) none else p
    let p := p.onLane l (Lane.addItem e.params i fl)
    (p.checkAge e l i fl).checkValue e l

/-- A transaction starts (R10). -/
def Lane.startTxn (e : Env) (x : Lane) : Lane :=
  { x with
      txn := x.txn + 1
      pinned := e.tables.current
      totals := {}
      stack := []
      inactivity := if x.session.isSome then x.inactivity else some e.params.inactivity }

/-- A SCAN or WEIGH (R15). -/
def Proc.itemFrame (e : Env) (l : LaneIx) (i : ItemFrame) (p : Proc) : Proc :=
  match (p.floor.lane l).state with
  | .closed => (p.report annClosedLane).byCustomer
  | .ready =>
    (((p.onLane l (Lane.startTxn e)).onFloor (fun f => f.enter l .scanning)).item e l i).byCustomer
  | .scanning | .closingScan => (p.item e l i).byCustomer
  | .paying | .closingPay =>
    ((p.report annOutOfOrder).raise e l .lostFrame (some (.lost 0)) none).byCustomer

/-! ## Weight (R23, R24) -/

/-- The reconciliation of a stable reading M in a transaction (R24). -/
def Proc.reconcile (e : Env) (l : LaneIx) (m : Nat) (p : Proc) : Proc :=
  let x := p.floor.lane l
  let ok := inTolerance e.params.baseTolerance x.totals.tolerance m x.totals.expected
  if x.bagSettle.isSome then
    if ok then (p.onLane l (fun x => { x with bagSettle := none })).resolve l .weight else p
  else if ok then p.resolve l .weight
  else p.raise e l .weight (some (.grams (diff m x.totals.expected))) none

/-- A BAG frame (R23). -/
def Proc.bag (e : Env) (l : LaneIx) (m : Nat) (stable : Bool) (p : Proc) : Proc :=
  if stable then
    let x := p.floor.lane l
    let p' := p.onLane l (fun x => { x with totals := { x.totals with bag := some m } })
    let p' := if x.state.inTxn then p'.reconcile e l m else p'
    if x.totals.bag = some m then p' else p'.byCustomer
  else p

/-! ## The other customer frames (R15 to R18) -/

/-- A REMOVE frame (R18). -/
def Proc.remove (e : Env) (l : LaneIx) (a : Article) (p : Proc) : Proc :=
  match (p.floor.lane l).state with
  | .closed | .ready => p.drop.byCustomer
  | .scanning | .paying | .closingScan | .closingPay =>
    (p.raise e l .void (some (.article a)) none).byCustomer

/-- A HELP frame (R18, R35). -/
def Proc.help (e : Env) (l : LaneIx) (p : Proc) : Proc :=
  (p.raise e l .help none (some .screen)).byCustomer

/-- A TOTAL frame (R16). -/
def Proc.total (e : Env) (l : LaneIx) (cents : Nat) (p : Proc) : Proc :=
  let x := p.floor.lane l
  match x.state with
  | .scanning | .closingScan =>
    if cents = x.totals.value then
      (p.onFloor (fun f =>
        f.enter l (if x.state = .scanning then .paying else .closingPay))).byCustomer
    else ((p.report annMismatch).raise e l .lostFrame (some (.lost 0)) none).byCustomer
  | .closed | .ready | .paying | .closingPay => p.drop.byCustomer

/-- A RESUME_SCAN frame (R18). -/
def Proc.resumeScan (l : LaneIx) (p : Proc) : Proc :=
  match (p.floor.lane l).state with
  | .paying => (p.onFloor (fun f => f.enter l .scanning)).byCustomer
  | .closingPay => (p.onFloor (fun f => f.enter l .closingScan)).byCustomer
  | .closed | .ready | .scanning | .closingScan => p.drop.byCustomer

/-- The transaction ends by this frame, whose event takes the unresolved-at-end set (R11). -/
def Proc.endTxn (l : LaneIx) (p : Proc) : Proc :=
  let r := p.floor.endTxn l
  let p' : Proc := { p with floor := r.1, unresolved := r.2 }
  if r.2 = 0 then p' else p'.note annUnresolved

/-- A PAID frame (R12, R17). -/
def Proc.paid (e : Env) (l : LaneIx) (p : Proc) : Proc :=
  match (p.floor.lane l).state with
  | .paying | .closingPay => (p.resolve l .payFail).endTxn l
  | .ready | .scanning | .closingScan =>
    (p.report annOutOfOrder).raise e l .lostFrame (some (.lost 0)) none
  | .closed => p.report annOutOfOrder

/-- A TENDER_FAIL frame (R18). -/
def Proc.tenderFail (e : Env) (l : LaneIx) (cents : Nat) (p : Proc) : Proc :=
  match (p.floor.lane l).state with
  | .paying | .closingPay => (p.raise e l .payFail (some (.cents cents)) none).byCustomer
  | .closed | .ready | .scanning | .closingScan => p.drop.byCustomer

/-! ## Badges (R82 to R86) and overrides (R90 to R97) -/

/-- A refusal message is set and its timer started (R47). -/
def Lane.refuseWith (m : RefusalMsg) (x : Lane) : Lane :=
  { x with refusal := some m, refusalTimer := some Config.refusalTicks }

/-- The presence counters of a frame in processing changed. -/
def Proc.count (g : PresenceCounters → PresenceCounters) (p : Proc) : Proc :=
  p.onFloor (fun f => { f with presence := g f.presence })

/-- A BADGE refused (R86). -/
def Proc.refuseBadge (l : LaneIx) (p : Proc) : Proc :=
  ((p.onLane l (Lane.refuseWith .badgeRefused)).count
    (fun c => { c with badgeRefusals := bump c.badgeRefusals })).note annRefused

/-- A session opens by this frame (R83). -/
def Proc.openSession (e : Env) (l : LaneIx) (n : BadgeNo) (lv : Level) (p : Proc) : Proc :=
  let idle := (p.floor.lane l).has .idle
  let p' := (p.onFloor (Floor.openSession e l n lv)).note annDone
  { p' with resolved := p'.resolved || idle }

/-- A BADGE frame (R82). -/
def Proc.badge (e : Env) (l : LaneIx) (n : BadgeNo) (p : Proc) : Proc :=
  match e.tables.level n with
  | none => p.refuseBadge l
  | some lv =>
    match (p.floor.lane l).session with
    | none => p.openSession e l n lv
    | some se =>
      if se.badge = n then (p.onFloor (Floor.closeSession e.params l)).note annDone
      else if se.level.code < lv.code then (p.onFloor (Floor.takeSession e l n lv)).note annDone
      else p.refuseBadge l

/-- The condition of an override action (4.5). -/
def Lane.meets (x : Lane) (a : Action) : Bool :=
  match a with
  | .ack => x.has .help || x.has .idle || x.has .payFail || x.has .lostFrame || x.has .void
  | .voidLast => x.state.inTxn && !x.stack.isEmpty
  | .approveWeight | .approveAge | .approveValue | .cancel => x.state.inTxn
  | .approveItem => x.has .watch

/-- The newest item is taken off (steps 1 to 4 of R92). -/
def Lane.voidItem (p : Params) (x : Lane) : Lane :=
  match x.stack with
  | [] => x
  | i :: rest =>
    { x with
        stack := rest
        totals := { x.totals with
          value := x.totals.value - i.lineValue
          itemCount := x.totals.itemCount - 1
          expected := x.totals.expected - i.weight
          tolerance := x.totals.tolerance - i.tolerance
          ageCount := if i.age then x.totals.ageCount - 1 else x.totals.ageCount }
        bagSettle := if 0 < i.weight then some p.bagSettle else x.bagSettle }

/-- A done override action (R91 to R97). -/
def Proc.perform (e : Env) (l : LaneIx) (a : Action) (p : Proc) : Proc :=
  match a with
  | .ack =>
    ((((p.resolve l .help).resolve l .idle).resolve l .payFail).resolve l .lostFrame).resolve l .void
  | .voidLast =>
    let aged := (p.floor.lane l).stack.head?.any (·.age)
    let p' := p.onLane l (Lane.voidItem e.params)
    let p' := if aged ∧ (p'.floor.lane l).totals.ageCount = 0 then p'.resolve l .age else p'
    p'.resolve l .void
  | .approveWeight =>
    (p.onLane l (fun x =>
      { x with totals := { x.totals with expected := x.totals.bag.getD 0, tolerance := 0 }
               bagSettle := none })).resolve l .weight
  | .approveItem => p.resolve l .watch
  | .approveAge =>
    (p.onLane l (fun x =>
      { x with totals := { x.totals with ageApproved := true, ageCount := 0 } })).resolve l .age
  | .approveValue =>
    (p.onLane l (fun x =>
      { x with totals := { x.totals with highRaised := true } })).resolve l .highValue
  | .cancel => p.endTxn l

/-- The presence timer restarts (R87). -/
def Lane.restartPresence (p : Params) (x : Lane) : Lane := { x with presence := some p.presence }

/-- An OVERRIDE refused for level or for state (R90). -/
def Proc.refuseOverride (e : Env) (l : LaneIx) (p : Proc) : Proc :=
  ((p.onLane l (Lane.restartPresence e.params)).count
    (fun c => { c with overrideRefusals := bump c.overrideRefusals })).note annRefused

/-- An OVERRIDE frame (R90). -/
def Proc.override (e : Env) (l : LaneIx) (a : Action) (p : Proc) : Proc :=
  match (p.floor.lane l).session with
  | none =>
    { (p.onLane l (Lane.refuseWith .badgeRequired)).count
        (fun c => { c with withoutSession := bump c.withoutSession }) with verdict := .unheard }
  | some se =>
    if se.level.code < a.level.code then
      (p.onLane l (Lane.refuseWith .levelTooLow)).refuseOverride e l
    else if (p.floor.lane l).meets a then
      ((p.perform e l a).onLane l (Lane.restartPresence e.params)).note annDone
    else p.refuseOverride e l

/-! ## Processing a frame (R14, R15) -/

/-- The effect of a frame by its kind (R15). -/
def Proc.effect (e : Env) (l : LaneIx) (b : LaneFrame) (p : Proc) : Proc :=
  match b with
  | .scan a g q price w =>
    p.itemFrame e l { article := a, group := g, quantity := q.toNat
                      lineValue := q.toNat * price.toNat, weight := q.toNat * w.toNat
                      source := .scan }
  | .weigh a g w price =>
    p.itemFrame e l { article := a, group := g, quantity := 1, lineValue := price.toNat
                      weight := w.toNat, source := .weigh }
  | .bag m stable => p.bag e l m.toNat stable
  | .remove a => p.remove e l a
  | .help => p.help e l
  | .total c => p.total e l c.toNat
  | .resumeScan => p.resumeScan l
  | .paid _ => p.paid e l
  | .tenderFail c => p.tenderFail e l c.toNat
  | .badge n => p.badge e l n
  | .override a => p.override e l a

/-- A customer frame of a lane with a transaction restarts the inactivity timer, unless a session is
open, and resolves IDLE, after its own effects (R26, R27). -/
def Proc.activity (e : Env) (l : LaneIx) (p : Proc) : Proc :=
  let x := p.floor.lane l
  if p.customer && x.state.inTxn then
    (p.onLane l (fun x =>
      { x with inactivity :=
                 if x.session.isSome then x.inactivity else some e.params.inactivity })).resolve l .idle
  else p

/-- The transaction number of a frame's event (R13). -/
def eventTxn (before after : Lane) : Option TxnNo :=
  if before.state.inTxn then some before.txn
  else if after.state.inTxn then some after.txn
  else none

/-- A lane event is handed on, by the map as it stands (R164). -/
def Floor.handOn (e : Env) (f : Floor) (ev : LaneEvent) : Floor :=
  match e.chanOf ev.frame.body.kind with
  | none => f.giveBack ev.frame.buf
  | some c =>
    match f.chans[c].state with
    | .disabled =>
      (f.modChan c (fun ch => { ch with discarded := bump ch.discarded })).giveBack ev.frame.buf
    | .pending | .opened => f.modChan c (fun ch => { ch with queue := ch.queue ++ [ev] })

/-- What becomes of the frame after its effects: its lane event is handed on, or its buffer returns and
its outcome is counted (R14). -/
def Proc.conclude (e : Env) (l : LaneIx) (fr : Frame) (before : Lane) (p : Proc) : Floor :=
  let f := p.floor.touch l
  let out (f : Floor) : Floor := f.modLane l (fun x =>
    { x with counters := { x.counters with outOfPlace := bump x.counters.outOfPlace } })
  let ev : LaneEvent :=
    { frame := fr, txn := eventTxn before (f.lane l), stamp := e.now, annos := p.annos
      raised := p.raised, unresolved := p.unresolved }
  match p.verdict with
  | .applied => f.handOn e ev
  | .reported => (out f).handOn e ev
  | .dropped => (out f).giveBack fr.buf
  | .unheard => f.giveBack fr.buf

/-- A frame is processed by its lane up to the handing on of its event; whether it resolved a reason is
told with the floor (R14, R38). -/
def Floor.process (e : Env) (fr : Frame) (deferred : Bool) (f : Floor) : Floor × Bool :=
  let marks := (if fr.gap then annGap else 0) ||| (if deferred then annDeferred else 0)
  let p : Proc := { floor := f, annos := marks }
  let p := (p.effect e fr.lane fr.body).activity e fr.lane
  (p.conclude e fr.lane fr (f.lane fr.lane), p.resolved)

/-! ## Deferred passes (R41 to R43) -/

/-- A frame at the head of a deferred list is processable (R41). -/
def Floor.processable (f : Floor) (e : Env) (fr : Frame) : Bool :=
  !(f.lane fr.lane).forbids fr.body.kind && f.room e fr.body.kind

/-- A deferred pass that may take up to `n` frames (R41). -/
def Floor.passUpTo (e : Env) (l : LaneIx) : Nat → Floor → Floor
  | 0, f => f
  | n + 1, f =>
    match (f.lane l).deferred with
    | [] => f
    | fr :: rest =>
      if f.processable e fr then
        Floor.passUpTo e l n
          ((f.modLane l (fun x => { x with deferred := rest })).process e fr true).1
      else f

/-- A deferred pass on a lane; the insertions owed by the event's record ends run before it (R41,
R54). -/
def Floor.pass (e : Env) (l : LaneIx) (f : Floor) : Floor :=
  let g := f.insertions e.params
  g.passUpTo e l (g.lane l).deferred.length

/-- A frame processed on arrival, with the deferred pass its resolutions start (R14, R38). -/
def Floor.processNow (e : Env) (fr : Frame) (f : Floor) : Floor :=
  let r := f.process e fr false
  if r.2 then r.1.pass e fr.lane else r.1

/-- The visit of a sweep to one lane: the floor, and the first lane so far whose pass took a frame
(R43). -/
def Floor.visit (e : Env) (a : Floor × Option LaneIx) (l : LaneIx) : Floor × Option LaneIx :=
  if (a.1.lane l).deferred.isEmpty then a
  else
    let g := a.1.pass e l
    (g, a.2.or (if (g.lane l).deferred.length < (a.1.lane l).deferred.length then some l else none))

/-- A deferred pass on every lane whose deferred list is not empty, from the release pointer on, which
then moves to the lane after the first that took a frame (R43). -/
def Floor.sweep (e : Env) (f : Floor) : Floor :=
  let r := (allLanes.map (fun i => f.releasePtr + i)).foldl (Floor.visit e) (f, none)
  match r.2 with
  | none => r.1
  | some l => { r.1 with releasePtr := l + 1 }

end Sys2Proof.Machine
end

