-- ==== Sys2Proof/Machine/Formats.lean ====
section
/-! DEFINITION. The characters of what the part sends: POLL and DIRECT (11.1, R193), and the results,
snapshots, notices and lane events of the store link (R183 to R188, 11.2, R194). -/

namespace Sys2Proof.Machine

/-! ## Field types (R194) -/

/-- A number in one character. -/
def num1c (n : Nat) : List Byte := [BitVec.ofNat 8 n]
/-- A number in two characters. -/
def num2c (n : Nat) : List Byte := chars2 (BitVec.ofNat 16 n)
/-- A number in three characters. -/
def num3c (n : Nat) : List Byte := chars3 (BitVec.ofNat 24 n)
/-- A yes/no field. -/
def flagc (b : Bool) : List Byte := [if b then 1 else 0]
/-- An optional field of a given width: presence character, then the value or characters of 0. -/
def optc {α : Type} (width : Nat) (enc : α → List Byte) (o : Option α) : List Byte :=
  match o with
  | some a => 1 :: enc a
  | none => List.replicate (width + 1) 0
/-- Timer remains (R176). -/
def timerc (t : Timer) : List Byte := num2c (remains t)
/-- The value of a detail in six characters. -/
def detailValue : Detail → List Byte
  | .grams d => chars6 (BitVec.ofInt 48 d)
  | .article a => chars6 a
  | .cents n => chars6 (BitVec.ofNat 48 n)
  | .lost n => chars6 (BitVec.ofNat 48 n)
  | .limit c => chars6 (BitVec.ofNat 48 c.code)
/-- A detail: presence character and six characters. -/
def detailc (d : Option Detail) : List Byte := optc 6 detailValue d
/-- A console field that may name no console: 4 for none. -/
def consolec (c : Option ConsoleIx) : List Byte := num1c (c.elim 4 (·.1))
/-- An echoed or last DIRECT generation: 8 for unknown or absent. -/
def genc (g : Option Gen) : List Byte := num1c (g.elim 8 (·.toNat))
/-- Synchronised and last accepted sequence in one character. -/
def syncc (q : Option Seq) : List Byte := num1c (q.elim 0 (fun q => 8 + q.toNat))
/-- A filtered level: 0 low, 1 high, 2 unknown. -/
def levelc (v : Option Bool) : List Byte := num1c (v.elim 2 (fun b => if b then 1 else 0))
/-- A refusal message, 0 for absent (11.4). -/
def refusalc (m : Option RefusalMsg) : List Byte := num1c (m.elim 0 (·.message.code))
/-- A record id: slot and issue. -/
def idc (k : SlotIx) (issue : BitVec 4) : List Byte := num1c k.1 ++ num1c issue.toNat

/-! ## Lane line messages (11.1) -/

/-- Characters of a line message with its check: the first carries the marker (R118, R193). -/
def lineMessage (address : Byte) (rest : List Byte) : List LineChar :=
  lineChar address true ::
    (rest ++ [crc8 (address :: rest)]).map (fun b => lineChar b false)

/-- The DIRECT word character (11.1). -/
def wordChar (w : DirectiveWord) : Byte :=
  BitVec.ofNat 8 (w.lamp.code + (if w.pause then 4 else 0) + 8 * w.gen.toNat)

/-- The DIRECT to a drop (11.1). -/
def directChars (d : DropIx) (w : DirectiveWord) : List LineChar :=
  lineMessage (addressChar d 24) [wordChar w, BitVec.ofNat 8 w.message.code]

/-- The POLL control character (11.1). -/
def controlChar (ack : Option Seq) (standby : Bool) : Byte :=
  BitVec.ofNat 8 (ack.elim 8 (·.toNat) + (if standby then 16 else 0))

/-- The POLL to a drop (R125, 11.1). -/
def pollChars (d : DropIx) (ack : Option Seq) (standby : Bool) : List LineChar :=
  lineMessage (addressChar d 25) [controlChar ack standby]

/-! ## READ LANE (R183) -/

/-- A deferred list entry: its kind code, with bit 7 for a GAP mark (R194). -/
def deferredEntry (fr : Frame) : Byte :=
  BitVec.ofNat 8 (fr.body.kind.ix.1 + 1 + (if fr.gap then 128 else 0))

/-- A deferred list: a count and six entries (R194). -/
def deferredc (fs : List Frame) : List Byte :=
  num1c fs.length ++
    ((fs.map deferredEntry) ++ List.replicate Config.maxDeferred 0).take Config.maxDeferred

/-- The directive word's fields (log 15). -/
def wordc (w : DirectiveWord) : List Byte :=
  num1c w.lamp.code ++ flagc w.pause ++ num1c w.message.code ++ num1c w.gen.toNat

/-- READ LANE page 0 (R183). -/
def lanePage0 (x : Lane) : List Byte :=
  num1c x.state.code ++ chars2 x.txn
    ++ optc 1 (fun bk => num1c (match bk with | BankId.a => 0 | BankId.b => 1)) x.pinned
    ++ num2c x.totals.itemCount ++ num3c x.totals.value ++ num3c x.totals.expected
    ++ num2c x.totals.tolerance ++ optc 3 num3c x.totals.bag ++ num2c x.totals.ageCount
    ++ flagc x.totals.ageApproved ++ flagc x.totals.highRaised ++ num1c x.stack.length
    ++ deferredc x.deferred
    ++ optc 7 (fun se => chars2 se.badge ++ num1c se.level.code ++ chars4 se.opened) x.session
    ++ refusalc x.refusal ++ wordc x.word ++ genc x.echo ++ genc x.lastDirect
    ++ timerc x.bagSettle ++ timerc x.inactivity ++ timerc x.presence ++ timerc x.refusalTimer
    ++ syncc x.drop.lastSeq ++ flagc x.refusalMark
    ++ flagc x.call.enabled ++ num1c x.call.edge.code ++ levelc x.call.level ++ flagc x.call.pending

/-- A raised reason of a reasons page (R183). -/
def reasonEntry (x : Lane) (r : Reason) : List Byte :=
  match x.entry r with
  | none => []
  | some en => num1c r.ix.1 ++ chars4 en.stamp ++ flagc en.queued ++ detailc en.detail

/-- A stack entry with every field of R2 (R183). -/
def itemEntry (i : Item) : List Byte :=
  chars6 i.article ++ chars2 i.group ++ num1c i.quantity ++ num3c i.lineValue ++ num3c i.weight
    ++ num2c i.tolerance ++ flagc i.age ++ num1c i.source.code

/-- The results of READ LANE by page; none for a page outside 0 to 4 (R183). -/
def lanePage (x : Lane) (page : Nat) : Option (List Byte) :=
  match page with
  | 0 => some (lanePage0 x)
  | 1 => some (num1c x.reasons.length ++ num1c x.help.code
      ++ (x.reasons.take 5).flatMap (reasonEntry x))
  | 2 => some ((x.reasons.drop 5).flatMap (reasonEntry x))
  | 3 => some ((x.stack.take 4).flatMap itemEntry)
  | 4 => some ((x.stack.drop 4).flatMap itemEntry)
  | _ => none

/-! ## READ QUEUE (R184) -/

/-- The console to which a record is offered, and whether the offer is sent. -/
def RecState.offeredTo : RecState → Option (ConsoleIx × Bool)
  | .offered c sent => some (c, sent)
  | .waiting | .claimed _ | .attending _ => none

/-- The console that is a record's claimed-by. -/
def RecState.claimedBy : RecState → Option ConsoleIx
  | .claimed c => some c
  | .attending c => c
  | .waiting | .offered _ _ => none

/-- A record with every field of R50 and its timers (R184). That the declined set is one character, bit `c`
for console `c`, is the model's choice (log 15). -/
def recordEntry (d : Desk) (kr : SlotIx × Record) : List Byte :=
  let r := kr.2
  idc kr.1 d.slots[kr.1].issue ++ num1c r.lane.1 ++ num1c r.reason.ix.1 ++ num1c r.base.1
    ++ num1c r.current.1 ++ chars4 r.stamp ++ num1c r.state.code
    ++ consolec (r.state.offeredTo.map (·.1)) ++ optc 1 flagc (r.state.offeredTo.map (·.2))
    ++ consolec r.state.claimedBy ++ num1c r.declined.toNat ++ flagc r.needsPresence
    ++ num1c (r.current.1 - r.base.1) ++ detailc r.detail
    ++ timerc r.escal ++ timerc r.offer ++ timerc r.claim

/-- An unqueued reason (R184). -/
def unqueuedEntry (u : Unqueued) : List Byte :=
  num1c u.lane.1 ++ num1c u.reason.ix.1 ++ chars4 u.entry.stamp ++ num1c u.base.1

/-- The results of READ QUEUE; none for a list or start out of range (R184). -/
def queuePage (f : Floor) (p : Params) (list start : Nat) : Option (List Byte) :=
  match list with
  | 0 =>
    if start ≤ 47 then
      some (num1c f.desk.queue.length
        ++ ((f.desk.queue.drop start).take 3).flatMap (recordEntry f.desk))
    else none
  | 1 =>
    if start ≤ 191 then
      some (num1c (f.unqueued p).length ++ (((f.unqueued p).drop start).take 8).flatMap unqueuedEntry)
    else none
  | _ => none

/-! ## READ STATUS (R185) -/

/-- A traffic channel's fields. -/
def chanEntry (c : Channel) : List Byte :=
  num1c c.state.code ++ num1c c.credit ++ num1c c.queue.length ++ num1c c.pass

/-- A bank's fields. -/
def bankEntry (b : Bank) (pins : Nat) : List Byte :=
  num1c b.state.code ++ num1c pins ++ num2c b.declGroups ++ num1c b.declWatch
    ++ num2c b.groups.length ++ num1c b.watch.length

/-- The slot a console names. -/
def ConsoleState.slot : ConsoleState → Option SlotIx
  | .offered k | .busy k => some k
  | .absent | .free => none

/-- A console's fields. -/
def consoleEntry (d : Desk) (c : ConsoleIx) : List Byte :=
  let x := d.console c
  num1c x.state.code ++ optc 2 (fun k => idc k d.slots[k].issue) x.state.slot
    ++ flagc x.pending ++ num1c x.cause.code

/-- The free order as four characters (R194). -/
def freeOrderc (cs : List ConsoleIx) : List Byte :=
  ((cs.flatMap (fun c : ConsoleIx => num1c c.1)) ++ List.replicate 4 4).take 4

/-- READ STATUS page PART; `own` counts the slot of the read itself (R181, R185). That the store link state
is one character, 1 for UP and 0 for DOWN, is the model's choice (log 15). -/
def partPage (s : State) (own : Nat) : List Byte :=
  chars4 s.storeTime
    ++ num1c s.mgmt.cause.code ++ flagc s.mgmt.conflictSeen ++ flagc s.mgmt.lostSeen
    ++ flagc s.linkUp ++ num1c (s.mgmt.slots.length + own) ++ num1c s.floor.free.length
    ++ allChans.flatMap (fun c => chanEntry s.floor.chans[c])
    ++ bankEntry s.tables.bankA (s.floor.pinCount .a)
    ++ bankEntry s.tables.bankB (s.floor.pinCount .b)
    ++ allConsoles.flatMap (consoleEntry s.floor.desk)
    ++ freeOrderc s.floor.desk.freeOrder
    ++ allConsoles.flatMap (fun c => chars3 s.tables.zones[c])

/-- A drop's fields (R185). -/
def dropEntry (d : DropLink) : List Byte :=
  num1c d.link.code ++ num1c d.misses ++ num1c d.quality ++ flagc d.trouble ++ syncc d.lastSeq

/-- READ STATUS page of a line (R185). -/
def linePage (s : State) (n : LineIx) : List Byte :=
  let x := s.lines[n]
  num1c x.state.code ++ flagc x.quietPending ++ num1c x.pos.1 ++ num1c x.round.1
    ++ flagc x.slot.isSome ++ num1c x.attention.code ++ timerc x.settle
    ++ allDrops.flatMap (fun d => dropEntry (s.floor.lane (laneOf n d)).drop)

/-! ## READ COUNTERS (R186) -/

/-- The counters of the group PART, in the order of R186. That the events are given channel by channel, sent
before discarded, is the model's choice (log 15). -/
def partCounters (s : State) : List Nat :=
  [s.mgmt.lost, s.link.skipped, s.link.badLength, s.link.truncated, s.link.badCheck,
   s.link.wrongChannel]
    ++ allChans.flatMap (fun c => [s.floor.chans[c].sent, s.floor.chans[c].discarded])
    ++ [s.poolEmpty, s.floor.desk.unqueuedRaises, s.floor.desk.offerExpiries,
        s.floor.desk.claimRecalls, s.floor.presence.badgeRefusals, s.floor.presence.withoutSession,
        s.floor.presence.overrideRefusals, s.floor.presence.sessionExpiries]

/-- The counters of a line. -/
def LineCounters.list (c : LineCounters) : List Nat :=
  [c.misses, c.damaged, c.noisy, c.breaks, c.ignoredBreaks, c.strays, c.standbyPolls,
   c.standbyFrames]

/-- The counters of a lane. -/
def LaneCounters.list (c : LaneCounters) : List Nat :=
  [c.outOfPlace, c.freed, c.duplicates, c.gaps, c.malformed, c.refused]

/-- A counter group (11.2). -/
inductive CounterGroup where
  | lane (l : LaneIx)
  | line (n : LineIx)
  | part
deriving DecidableEq, Repr

/-- The counter group of a group character (11.2). -/
def counterGroup (b : Byte) : Option CounterGroup :=
  if h : b.toNat < 24 then some (.lane ⟨b.toNat, h⟩)
  else if h2 : b.toNat < 28 then some (.line ⟨b.toNat - 24, by omega⟩)
  else if b.toNat = 28 then some .part
  else none

/-- The counters of a group (R186). -/
def State.counters (s : State) : CounterGroup → List Nat
  | .lane l => (s.floor.lane l).counters.list
  | .line n => s.lines[n].counters.list
  | .part => partCounters s

/-! ## Snapshots and notices (R60, R188, 11.2) -/

/-- A console snapshot's content. -/
def snapshotContent (d : Desk) (c : ConsoleIx) : List Byte :=
  let x := d.console c
  let named := x.state.slot.bind (fun k => (d.recAt k).map (fun r => (k, r)))
  num1c c.1 ++ num1c x.state.code
    ++ optc 4 (fun kr : SlotIx × Record =>
        idc kr.1 d.slots[kr.1].issue ++ num1c kr.2.lane.1 ++ num1c kr.2.reason.ix.1) named
    ++ detailc (named.bind (·.2.detail)) ++ num1c x.cause.code

/-- A LINE notice's content. -/
def lineNotice (s : State) (l : LaneIx) : List Byte :=
  num1c l.1 ++ num1c s.lines[lineOf l].state.code ++ dropEntry (s.floor.lane l).drop

/-- A raised reason of a LANE notice. -/
def noticeReason (x : Lane) (r : Reason) : List Byte :=
  match x.entry r with
  | none => []
  | some en => num1c r.ix.1 ++ flagc en.queued ++ detailc en.detail

/-- A LANE notice's content. -/
def laneNotice (f : Floor) (l : LaneIx) : List Byte :=
  let x := f.lane l
  num1c l.1 ++ num1c x.state.code ++ chars2 x.txn ++ num1c x.help.code
    ++ optc 5 (fun se => chars2 se.badge ++ num1c se.level.code ++ timerc x.presence) x.session
    ++ refusalc x.refusal ++ num1c x.deferred.length ++ [wordChar x.word]
    ++ num1c x.word.message.code ++ num1c x.reasons.length
    ++ x.reasons.flatMap (noticeReason x)

/-- A lane event's content (R163, 11.2). -/
def eventContent (ev : LaneEvent) : List Byte :=
  num1c ev.frame.lane.1 ++ optc 2 chars2 ev.txn ++ chars4 ev.stamp
    ++ chars2 (ev.annos.setWidth 16) ++ chars2 (ev.raised.setWidth 16)
    ++ chars2 (ev.unresolved.setWidth 16)
    ++ num1c ev.frame.body.content.length ++ ev.frame.body.content

/-- The characters of a message on the store link (11.2). -/
def TxMessage.chars (m : TxMessage) : List Byte :=
  let body := (m.channel ++ m.kind) :: BitVec.ofNat 8 m.content.length :: m.tag :: m.content
  165 :: body ++ chars2 (crc16 body)

end Sys2Proof.Machine
end

