-- ==== Sys2Proof/Machine/Arbiter.lean ====
section
/-! DEFINITION. The transmit arbiter and what the sending of a message does (R158, R165 to R167, R181,
R188, R189), and the common end of every event (log 6). -/

namespace Sys2Proof.Machine

/-! ## The end of an event (R48, R54, R62, log 6) -/

/-- The directive words of the lanes that took part in the event are derived (R48). -/
def Floor.deriveTouched (f : Floor) : Floor :=
  { allLanes.foldl (fun g l => if hasLane f.touched l then g.modLane l (Lane.derive false) else g) f
      with touched := 0 }

/-- Dispatch, where the event made it due (R62). -/
def Floor.dispatchIfDue (zones : Vector LaneSet 4) (f : Floor) : Floor :=
  if f.desk.dispatchDue then { f with desk := f.desk.dispatch zones } else f

/-- The end of an event on the floor: insertions, dispatch, directive words (log 6). -/
def Floor.settle (e : Env) (f : Floor) : Floor :=
  ((f.insertions e.params).dispatchIfDue e.tables.zones).deriveTouched

/-- The end of an event on the floor of the part. -/
def State.settle (s : State) : State := { s with floor := s.floor.settle s.env }

/-! ## Messages taken for sending -/

/-- The transmitter takes a message (R158). -/
def State.send (s : State) (m : TxMessage) : State := { s with link := { s.link with tx := some m } }

/-- The transmitter takes the oldest response (R181). -/
def State.sendResponse (s : State) (r : Response) : State :=
  s.send { what := .response, channel := 0, kind := 32, tag := r.tag
           content := [r.kind.setWidth 8, BitVec.ofNat 8 r.outcome.code] ++ r.results }

/-- A console's snapshot is sent: an unsent offer becomes sent, and its offer timer starts (R63). -/
def Desk.snapshotSent (d : Desk) (p : Params) (c : ConsoleIx) : Desk :=
  let d1 := d.modConsole c (fun x => { x with pending := false })
  match (d.console c).state with
  | .offered k =>
    match d.recAt k with
    | some { state := .offered _ false, .. } =>
      (d1.modRec k (fun r => { r with state := .offered c true, offer := some p.offer })).modConsole c
        (fun x => { x with saved := none })
    | _ => d1
  | .absent | .free | .busy _ => d1

/-- The transmitter takes a console snapshot, filled at that moment (R60, R189). -/
def State.sendSnapshot (s : State) (c : ConsoleIx) : State :=
  let m : TxMessage :=
    { what := .snapshot c, channel := 0, kind := 33, tag := 0
      content := snapshotContent s.floor.desk c }
  { s with floor := { s.floor with desk := s.floor.desk.snapshotSent s.params c }
           notices := { s.notices with consolePtr := c } }.send m

/-- The transmitter takes a PART notice (R188). -/
def State.sendPart (s : State) : State :=
  { s with notices := { s.notices with part := false } }.send
    { what := .partNotice, channel := 0, kind := 34, tag := 0, content := partPage s 0 }

/-- The transmitter takes a LINE notice (R188). -/
def State.sendLine (s : State) (l : LaneIx) : State :=
  { s with notices := { s.notices with line := dropLane s.notices.line l, linePtr := l } }.send
    { what := .lineNotice l, channel := 0, kind := 35, tag := 0, content := lineNotice s l }

/-- The transmitter takes a LANE notice (R188). -/
def State.sendLane (s : State) (l : LaneIx) : State :=
  { s with floor := { s.floor with laneFlags := dropLane s.floor.laneFlags l }
           notices := { s.notices with lanePtr := l } }.send
    { what := .laneNotice l, channel := 0, kind := 36, tag := 0, content := laneNotice s.floor l }

/-! ## The choice (R165, R166, R189) -/

/-- The first member of a set of lanes in rotation after a pointer (R189). -/
def nextLane (ptr : LaneIx) (set : LaneSet) : Option LaneIx :=
  (allLanes.map (fun i => ptr + 1 + i)).find? (hasLane set)

/-- The first console with a snapshot pending, in rotation after a pointer (R189). -/
def nextConsole (ptr : ConsoleIx) (d : Desk) : Option ConsoleIx :=
  (allConsoles.map (fun i => ptr + 1 + i)).find? (fun c => (d.console c).pending)

/-- The channel 0 messages a choice can take. -/
inductive Choice where
  | response (r : Response)
  | snapshot (c : ConsoleIx)
  | part
  | line (l : LaneIx)
  | lane (l : LaneIx)
deriving DecidableEq, Repr

/-- What channel 0 has available (R181, R189). -/
def State.available (s : State) : Option Choice :=
  match s.mgmt.slots with
  | r :: _ => some (.response r)
  | [] =>
    match nextConsole s.notices.consolePtr s.floor.desk with
    | some c => some (.snapshot c)
    | none =>
      if s.notices.part && s.params.mask.getLsbD 0 then some .part
      else
        match (if s.params.mask.getLsbD 1 then nextLane s.notices.linePtr s.notices.line else none)
        with
        | some l => some (.line l)
        | none =>
          (if s.params.mask.getLsbD 2 then nextLane s.notices.lanePtr s.floor.laneFlags
           else none).map .lane

/-- A traffic channel is eligible (R165). -/
def Channel.eligible (c : Channel) : Bool :=
  c.state == .opened && decide (0 < c.credit) && !c.queue.isEmpty

/-- The traffic channel a choice takes (R166): one at pass count 8 before the others, the highest
first. -/
def chooseChan (chans : Vector Channel 3) : Option ChanIx :=
  let el := (allChans.filter (fun c => chans[c].eligible)).reverse
  match el.find? (fun c => chans[c].pass == Config.maxPass) with
  | some c => some c
  | none => el.head?

/-- The channel records after channel `c` is chosen (R166, R167). -/
def takeChan (chans : Vector Channel 3) (c : ChanIx) : Vector Channel 3 :=
  Vector.ofFn (fun i =>
    let ch := chans[i]
    if i = c then { ch with credit := ch.credit - 1, pass := 0 }
    else if ch.eligible then { ch with pass := min (ch.pass + 1) Config.maxPass }
    else ch)

/-- The transmitter takes the head event of the chosen traffic channel (R167). Its tag is a free value
(log 14). -/
def State.sendEvent (s : State) (c : ChanIx) : State :=
  match s.floor.chans[c].queue with
  | [] => s
  | ev :: _ =>
    { s with floor := { s.floor with chans := takeChan s.floor.chans c }
             freeCount := s.freeCount + 1 }.send
      { what := .laneEvent c, channel := BitVec.ofNat 2 (c.1 + 1)
        kind := BitVec.ofNat 6 (ev.frame.body.kind.ix.1 + 1)
        tag := Config.laneEventTag s.freeCount, content := eventContent ev }

/-- A choice of the arbiter (R165). -/
def State.choose (s : State) : State :=
  match s.available with
  | some (.response r) => s.sendResponse r
  | some (.snapshot c) => s.sendSnapshot c
  | some .part => s.sendPart
  | some (.line l) => s.sendLine l
  | some (.lane l) => s.sendLane l
  | none =>
    match chooseChan s.floor.chans with
    | some c => s.sendEvent c
    | none => s

/-- The arbiter: it chooses only while the link is UP and the transmitter idle (R165). -/
def State.arbiter (s : State) : State :=
  if s.linkUp ∧ s.link.tx = none ∧ s.held = none then s.choose else s

/-- The end of an event: the floor settles, then the arbiter may choose (log 6). -/
def State.finish (s : State) : State := s.settle.arbiter

end Sys2Proof.Machine
end

