-- ==== Sys2Proof/Machine/Intake.lean ====
section
/-! DEFINITION. Frame intake: the judgement of a frame handed over at the end of a turn (R139 to
R149). -/

namespace Sys2Proof.Machine

/-- The gap count of a sequence number against the last accepted sequence; 0 where it is in sequence or
the drop is unsynchronised (R140, R142). -/
def gapCount (last : Option Seq) (seq : Seq) : Nat :=
  match last with
  | none => 0
  | some q => (seq - (q + 1)).toNat

/-- A duplicate (R141). -/
def isDuplicate (last : Option Seq) (seq : Seq) : Bool := last == some seq

/-- The frame is to be deferred rather than processed at once (R145). -/
def Lane.defers (x : Lane) (k : FrameKind) (gap : Nat) : Bool :=
  x.state != .closed && k.deferrable &&
    (!x.deferred.isEmpty || x.forbids k || decide (0 < gap))

/-- The lane's intake counters changed. -/
def Floor.countAt (f : Floor) (l : LaneIx) (g : LaneCounters → LaneCounters) : Floor :=
  f.modLane l (fun x => { x with counters := g x.counters })

/-- Steps 1 to 3 of an acceptance, with the lost count that LOST_FRAME is raised with, or none where it
is not raised (R144, R148). -/
def Floor.accept (e : Env) (l : LaneIx) (seq : Seq) (gap : Nat) (lost : Option Nat) (f : Floor) :
    Floor :=
  let g := (f.modLane l (fun x =>
    { x with drop := { x.drop with lastSeq := some seq }, refusalMark := false })).countAt l
      (fun c => { c with gaps := bump c.gaps gap })
  match lost with
  | none => g
  | some n => g.raise e l .lostFrame (some (.lost n)) none

/-- A malformed frame (R144). -/
def Floor.malformed (e : Env) (l : LaneIx) (seq : Seq) (gap : Nat) (b : BufId) (f : Floor) : Floor :=
  ((f.accept e l seq gap (some (gap + 1))).countAt l
    (fun c => { c with malformed := bump c.malformed })).giveBack b

/-- A refused frame (R147). -/
def Floor.refuseFrame (l : LaneIx) (b : BufId) (f : Floor) : Floor :=
  ((f.modLane l (fun x => { x with refusalMark := true })).countAt l
    (fun c => { c with refused := bump c.refused })).giveBack b

/-- A well-formed frame that is no duplicate: room, then refusal or acceptance and routing (R145 to
R148). R40 says that no two frames on a deferred list have one sequence number, while R140 and R142 accept a
frame whose number is still on the list (from an unsynchronised drop, or across a gap); that the frame is
then appended, as R148 has it, is the model's choice (log 32). -/
def Floor.wellFormed (e : Env) (l : LaneIx) (seq : Seq) (gap : Nat) (b : BufId) (body : LaneFrame)
    (f : Floor) : Floor :=
  let x := f.lane l
  let fr : Frame := { buf := b, lane := l, seq := seq, body := body, gap := decide (0 < gap) }
  let lost := if 0 < gap then some gap else none
  if x.defers body.kind gap then
    if x.deferred.length < Config.maxDeferred then
      (f.accept e l seq gap lost).modLane l (fun x => { x with deferred := x.deferred ++ [fr] })
    else f.refuseFrame l b
  else if f.room e body.kind then (f.accept e l seq gap lost).processNow e fr
  else f.refuseFrame l b

/-- The judgement of a frame received into a buffer: sequence, form and room (7.3 to 7.5). -/
def Floor.intake (e : Env) (l : LaneIx) (raw : RawFrame) (b : BufId) (f : Floor) : Floor :=
  let last := (f.lane l).drop.lastSeq
  let f := f.touch l
  if isDuplicate last raw.seq then
    (f.countAt l (fun c => { c with duplicates := bump c.duplicates })).giveBack b
  else
    let gap := gapCount last raw.seq
    match parseFrame raw.code.toNat raw.content with
    | none => f.malformed e l raw.seq gap b
    | some body => f.wellFormed e l raw.seq gap b body

end Sys2Proof.Machine
end

