-- ==== Sys2Proof/Machine/LineOps.lean ====
section
/-! DEFINITION. The line controllers (chapter 6): turns, the rotation, attention rounds, QUIET and wake,
and what the outcome of a turn does to a drop and its lane. -/

namespace Sys2Proof.Machine

/-! ## The start of a turn (R123 to R125) -/

/-- A line record. -/
def State.line (s : State) (n : LineIx) : Line := s.lines[n]

/-- The claim at the start of a turn whose answer slot is empty: the buffer at the head of the free list,
if there is one. The claim that empties the list sets the PART flag and counts (R123, R151, R153). -/
def State.claim (s : State) (n : LineIx) : State :=
  match (s.line n).slot with
  | some _ => s
  | none =>
    match s.floor.free with
    | [] => s
    | b :: rest =>
      let t := { s with floor := { s.floor with free := rest } }.modLine n
        (fun x => { x with slot := some b })
      if rest.isEmpty then { t with poolEmpty := bump t.poolEmpty }.flagPart else t

/-- A turn begins for a drop: buffer claim, DIRECT where the echo is stale, POLL (R123 to R125,
log 16). -/
def State.startTurn (s : State) (n : LineIx) (d : DropIx) : State :=
  let t := s.claim n
  let l := laneOf n d
  let x := t.floor.lane l
  let standby := (t.line n).slot.isNone
  let stale := x.echo ≠ some x.word.gen
  let t := if stale then
      { t with floor := t.floor.modLane l (fun x => { x with lastDirect := some x.word.gen }) }
    else t
  t.modLine n (fun y =>
    { y with
        turn := some
          { drop := d, phase := .sending, standby := standby
            direct := if stale then directChars d x.word else []
            poll := pollChars d x.drop.lastSeq standby }
        counters := if standby then
            { y.counters with standbyPolls := bump y.counters.standbyPolls }
          else y.counters })

/-! ## Which drop is next (R122, R131) -/

/-- A drop of a line is OFFLINE. -/
def State.offline (s : State) (n : LineIx) (d : DropIx) : Bool :=
  (s.floor.lane (laneOf n d)).drop.link == .offline

/-- The rotation position moves past a drop that was due or not; after drop 5 the round number advances
(R122). -/
def Line.advance (due : Bool) (x : Line) : Line :=
  if x.pos = 5 then { x with pos := 0, round := x.round + 1, roundServed := false }
  else { x with pos := x.pos + 1, roundServed := x.roundServed || due }

/-- The rotation, considering up to `k` positions: the first due drop is given a turn; a whole round
without a due drop begins the idle interval (R122). Twelve positions always suffice. -/
def State.rotate (n : LineIx) : Nat → State → State
  | 0, s => s
  | k + 1, s =>
    let x := s.line n
    let due := !s.offline n x.pos || x.round == 0
    let t := s.modLine n (Line.advance due)
    if due then t.startTurn n x.pos
    else if x.pos = 5 ∧ x.roundServed = false then
      t.modLine n (fun x => { x with idleWait := true })
    else State.rotate n k t

/-- The positions that the rotation may have to consider before a due drop or a whole round without
one. -/
def rotationSpan : Nat := 12

/-- The attention round from drop `from_` on: the first drop that is not OFFLINE is given a turn. When
none is left the round is inactive (R131, log 18). -/
def State.attend (s : State) (n : LineIx) (from_ : Nat) : Option State :=
  match allDrops.find? (fun d => decide (from_ ≤ d.1) && !s.offline n d) with
  | none => none
  | some d =>
    some ((s.modLine n (fun x =>
      { x with attention := if h : d.1 < 5 then .active ⟨d.1 + 1, by omega⟩ else .inactive
               idleWait := false })).startTurn n d)

/-- A line enters QUIET (R133). -/
def State.enterQuiet (s : State) (n : LineIx) : State :=
  let x := s.line n
  let t := match x.slot with
    | some b => { s with floor := s.floor.giveBack b }
    | none => s
  t.modLine n (fun x =>
    { x with state := .quiet, quietPending := false, slot := none, turn := none
             attention := .inactive, idleWait := false })

/-- Between turns: the line enters QUIET, serves its attention round, or goes on with the rotation (R122,
R131, R133). A line in its idle interval goes on waiting where no drop can be served. -/
def State.nextTurn (s : State) (n : LineIx) : State :=
  let x := s.line n
  let resume (t : State) : State := if x.idleWait then t else t.rotate n rotationSpan
  if x.quietPending then s.enterQuiet n
  else
    match x.attention with
    | .inactive => resume s
    | .due => (s.attend n 0).getD (resume (s.modLine n (fun x => { x with attention := .inactive })))
    | .active d =>
      (s.attend n d.1).getD (resume (s.modLine n (fun x => { x with attention := .inactive })))

/-! ## Wake (R134) -/

/-- A wake cause reaches a line: a QUIET line enters WAKING, an ACTIVE line loses its quiet pending
(R133, R134). -/
def Line.wake (x : Line) : Line :=
  match x.state with
  | .quiet => { x with state := .waking, settle := some Config.settleTicks }
  | .active => { x with quietPending := false }
  | .waking => x

/-- A drop when its line's settle timer expires (R134). -/
def DropLink.woken (d : DropLink) : DropLink :=
  match d.link with
  | .offline => { d with lastSeq := none }
  | .online | .silent => { d with link := .online, misses := 0, lastSeq := none }

/-- The line's drops and lanes are prepared for polling (R134). -/
def State.prepareLine (s : State) (n : LineIx) : State :=
  allDrops.foldl
    (fun s d =>
      let l := laneOf n d
      let x := s.floor.lane l
      let y := { x with drop := x.drop.woken, echo := none, lastDirect := none }
      let t := { s with floor := s.floor.setLane l y }
      if x.drop.link = .silent then t.flagLine l else t) s

/-! ## The outcome of a turn (R127 to R130) -/

/-- Outcomes of a turn (R127). -/
inductive TurnEnd where
  | miss
  | damaged
  | good (noisy : Bool)
deriving DecidableEq, Repr

/-- Miss count, link state and synchronisation by the outcome (R129). -/
def DropLink.byOutcome (o : TurnEnd) (d : DropLink) : DropLink :=
  match o with
  | .miss =>
    match d.link with
    | .online => { d with misses := 1, link := .silent }
    | .silent =>
      if d.misses + 1 < 3 then { d with misses := d.misses + 1 }
      else { d with misses := 3, link := .offline }
    | .offline => d
  | .damaged => d
  | .good _ =>
    match d.link with
    | .online => d
    | .silent => { d with misses := 0, link := .online }
    | .offline => { d with misses := 0, link := .online, lastSeq := none }

/-- Quality by the outcome (R130). -/
def DropLink.qualityBy (o : TurnEnd) (d : DropLink) : DropLink :=
  match o with
  | .miss => d
  | .damaged => { d with quality := min (d.quality + 4) 15 }
  | .good true => { d with quality := min (d.quality + 1) 15 }
  | .good false => { d with quality := d.quality - 1 }

/-- Trouble, judged with hysteresis (R130). -/
def DropLink.troubled (d : DropLink) : Bool :=
  if d.trouble then !(d.link == .online && decide (d.quality < Config.troubleOff))
  else d.link == .offline || decide (Config.troubleOn ≤ d.quality)

/-- A drop's link record after a turn (R129, R130). -/
def DropLink.afterTurn (o : TurnEnd) (d : DropLink) : DropLink :=
  let d' := (d.byOutcome o).qualityBy o
  { d' with trouble := d'.troubled }

/-- What the beginning or end of trouble does to the lane (R130). That the deferred pass which the
resolution of LINK starts runs here, in step 1 of R127 and so before the frame of the same turn reaches
intake, and that the frame's own resolutions may start a second pass, is the model's choice (log 33). -/
def Floor.troubleChanged (e : Env) (l : LaneIx) (was is : Bool) (f : Floor) : Floor :=
  if was = false ∧ is = true then
    if (f.lane l).state = .closed then f else f.raise e l .link none none
  else if was = true ∧ is = false then
    let linked := (f.lane l).has .link
    let g := if (f.lane l).state.inTxn then f.raise e l .lostFrame (some (.lost 0)) none else f
    if linked then (g.resolve l .link).pass e l else g
  else f

/-- The line's counters by the outcome (R129, R130). -/
def LineCounters.byOutcome (o : TurnEnd) (c : LineCounters) : LineCounters :=
  match o with
  | .miss => { c with misses := bump c.misses }
  | .damaged => { c with damaged := bump c.damaged }
  | .good true => { c with noisy := bump c.noisy }
  | .good false => c

/-- Step 1 of the end of a turn: the drop's link record, the line's counters, LINK and LOST_FRAME
(R127). -/
def State.judgeDrop (s : State) (n : LineIx) (d : DropIx) (o : TurnEnd) : State :=
  let l := laneOf n d
  let old := (s.floor.lane l).drop
  let new := old.afterTurn o
  let f := (s.floor.modLane l (fun x => { x with drop := new })).touch l
  let t := { s with floor := f.troubleChanged s.env l old.trouble new.trouble }.modLine n
    (fun x => { x with counters := x.counters.byOutcome o })
  if old.link = new.link then t else t.flagLine l

/-- The end of a turn after its effects: the event settles, the next turn begins, the arbiter may
choose (R127, log 6). -/
def State.endTurn (s : State) (n : LineIx) : State :=
  ((s.modLine n (fun x => { x with turn := none })).settle.nextTurn n).arbiter

/-- Steps 2 and 3 of the end of a turn with a good answer: the echo, and a frame handed to intake, or
discarded where the POLL carried STANDBY (R127, R128). -/
def State.takeAnswer (s : State) (n : LineIx) (u : Turn) (a : GoodAnswer) : State :=
  let l := laneOf n u.drop
  let t := { s with floor := s.floor.modLane l (fun x => { x with echo := some a.echo }) }
  match a.frame with
  | none => t
  | some raw =>
    match (t.line n).slot with
    | some b =>
      { t with floor := t.floor.intake t.env l raw b }.modLine n (fun x => { x with slot := none })
    | none =>
      t.modLine n (fun x =>
        { x with counters :=
                   { x.counters with standbyFrames := bump x.counters.standbyFrames } })

/-- Stray characters counted on a line (R132). -/
def Line.countStrays (k : Nat) (x : Line) : Line :=
  { x with counters := { x.counters with strays := bump x.counters.strays k } }

/-- A turn ends with a damaged answer (R126, R127). -/
def State.endDamaged (s : State) (n : LineIx) (d : DropIx) : State :=
  (s.judgeDrop n d .damaged).endTurn n

end Sys2Proof.Machine
end

