-- ==== Sys2Proof/Machine/Reset.lean ====
section
/-! DEFINITION. Power-on, the part reset and the RESET pin (R191 and the "After reset" tables). -/

namespace Sys2Proof.Machine

/-- Every command's form: a part held in reset runs no block (R191, log 21). -/
def whenRunning (s : State) (f : State → State) : Host.Outcome State Fault Refusal :=
  .next (if s.held.isSome then s else f s)

/-- A bank after a part reset: a load is cut off, and no bank is CURRENT (R117). -/
def Bank.afterReset (b : Bank) : Bank :=
  { b with state := match b.state with
             | .loading => .invalid
             | .current => .ready
             | .empty => .empty
             | .invalid => .invalid
             | .ready => .ready }

/-- The values of the part reset, with its cause (R28, R49, R80, R99, R117, R138, R155, R171, R178,
R192). Kept: the tables' contents, the badge list, the zones, the LINK_OK filter, the fault flags, and
the model's own queue and count of free values. -/
def State.resetValues (s : State) (cause : ResetCause) : State :=
  { State.reset with
      tables := { s.tables with bankA := s.tables.bankA.afterReset
                                bankB := s.tables.bankB.afterReset }
      link := { State.reset.link with prev := s.link.prev, level := s.link.level, due := s.link.due }
      mgmt := { State.reset.mgmt with cause := cause, conflictSeen := s.mgmt.conflictSeen
                                      lostSeen := s.mgmt.lostSeen }
      freeCount := s.freeCount
      pending := s.pending }

/-- The first turn of every line begins (R138, log 22). -/
def State.beginLines (s : State) : State := allLines.foldl State.nextTurn s

/-- A part reset takes effect: the reset values, then the first turns (R138, R191). -/
def State.partReset (s : State) (cause : ResetCause) : State :=
  ((s.resetValues cause).beginLines).arbiter

/-- POWER_ON (R191): the power-on values; with the RESET pin low the part is held, and its release will
record POWER. -/
def execPowerOn (resetLow : Bool) (s : State) : Host.Outcome State Fault Refusal :=
  let t := { State.reset with freeCount := s.freeCount, pending := s.pending }
  .next (if resetLow then { t with held := some .power } else t.beginLines.arbiter)

/-- A line without a turn: its driver is off (R191). -/
def Line.idle (x : Line) : Line := { x with turn := none }

/-- RESET_PIN_LOW (R191): the part is held; a pending PART RESET ends unsent. -/
def execResetPinLow (s : State) : Host.Outcome State Fault Refusal :=
  whenRunning s fun s =>
    let t := allLines.foldl (fun s n => s.modLine n Line.idle) s
    { t with held := some .pin, link := { t.link with tx := none, rx := .hunt }
             mgmt := { t.mgmt with resetPending := false } }

/-- RESET_PIN_HIGH (R191): the part reset takes effect with the cause of the hold. -/
def execResetPinHigh (s : State) : Host.Outcome State Fault Refusal :=
  .next (match s.held with
    | none => s
    | some cause => s.partReset cause)

end Sys2Proof.Machine
end

