-- ==== Sys2Proof/Machine/Requests.lean ====
section
/-! DEFINITION. Request intake and responses (R179 to R182), shared by every request. -/

namespace Sys2Proof.Machine

/-- What a request's execution gives: the state, the outcome and the results (R180). -/
structure Executed where
  state   : State
  outcome : Answer
  results : List Byte := []

/-- The receiver hunts again after a message it finishes (R157). -/
def State.hunt (s : State) : State := { s with link := { s.link with rx := .hunt } }

/-- A request is lost: counted, with the saturation flag set by the increment that reaches 65,535 (R179,
R190). -/
def State.loseRequest (s : State) : State :=
  let lost := bump s.mgmt.lost
  let saturates := decide (lost = Config.maxCounter ∧ s.mgmt.lost ≠ Config.maxCounter)
  let t := { s with mgmt := { s.mgmt with lost := lost, lostSeen := s.mgmt.lostSeen || saturates } }
  if saturates && !s.mgmt.lostSeen then t.flagPart else t

/-- The response of an executed request fills its slot (R180, R181). -/
def Executed.respond (r : Executed) (kind : BitVec 6) (tag : Byte) : State :=
  let response : Response := { tag := tag, kind := kind, outcome := r.outcome, results := r.results }
  { r.state with mgmt := { r.state.mgmt with slots := r.state.mgmt.slots ++ [response] } }

/-- Request intake: nothing is received while the link is DOWN; a request is discarded while a PART RESET
is pending, lost where no slot is free, and else executed, its response filling the slot (R157, R179,
R180). -/
def State.take (s : State) (kind : BitVec 6) (tag : Byte) (run : State → Executed) : State :=
  if !s.linkUp then s
  else if s.mgmt.resetPending then s.hunt
  else if Config.maxSlots ≤ s.mgmt.slots.length then s.hunt.loseRequest.arbiter
  else ((run s.hunt).respond kind tag).finish

/-- A request as a command. -/
def request (kind : BitVec 6) (tag : Byte) (run : State → Executed) (s : State) :
    Host.Outcome State Fault Refusal :=
  whenRunning s (fun s => s.take kind tag run)

/-- A request answered without a change (R182). -/
def State.refuse (s : State) (a : Answer) : Executed := { state := s, outcome := a }

/-- A request answered DONE. -/
def State.done (s : State) : Executed := { state := s, outcome := .done }

/-- A read answered DONE with its results, or BAD_ARGUMENT (R183 to R186). -/
def State.answerRead (s : State) (results : Option (List Byte)) : Executed :=
  match results with
  | some r => { state := s, outcome := .done, results := r }
  | none => s.refuse .badArgument

/-- The state with the floor changed. -/
def State.onFloor (s : State) (g : Floor → Floor) : State := { s with floor := g s.floor }

/-- The state with the desk changed. -/
def State.onDesk (s : State) (g : Desk → Desk) : State :=
  s.onFloor (fun f => { f with desk := g f.desk })

end Sys2Proof.Machine
end

