-- ==== Sys2Proof/Machine/Channels.lean ====
section
/-! DEFINITION. The channel requests: CREDIT, CHANNEL SET, MAP SET (R160 to R162). -/

namespace Sys2Proof.Machine

/-- A grant of credit to a channel that is not DISABLED (R161). -/
def Channel.grant (n : Nat) (c : Channel) : Channel :=
  if n = 0 then { c with credit := 0 }
  else { c with credit := min (c.credit + n) Config.maxCredit, state := .opened }

/-- CREDIT (R161). -/
def State.runCredit (channel count : Byte) (s : State) : Executed :=
  match chanArg channel with
  | none => s.refuse .badArgument
  | some c =>
    if Config.maxCredit < count.toNat then s.refuse .badArgument
    else if s.floor.chans[c].state = .disabled then s.refuse .badState
    else
      let opens := decide (count.toNat ≠ 0) && s.floor.chans[c].state == .pending
      let t := s.onFloor (fun f => f.modChan c (Channel.grant count.toNat))
      (if opens then t.flagPart else t).done

/-- CREDIT (R161). -/
def execCredit (tag channel count : Byte) (s : State) : Host.Outcome State Fault Refusal :=
  request 1 tag (State.runCredit channel count) s

/-- The event of a channel is in transmission (R159). -/
def State.inTransmission (s : State) (c : ChanIx) : Bool :=
  s.link.tx.any (fun m => m.what == .laneEvent c)

/-- A channel is disabled (R160): every queued event that is not in transmission is discarded, credit and
pass count become 0, and deferred passes run. That the discarded events' buffers join the free list head
first is the model's choice (log 31). -/
def State.disableChannel (s : State) (c : ChanIx) : State :=
  let q := s.floor.chans[c].queue
  let keep := if s.inTransmission c then 1 else 0
  let t := s.onFloor fun f =>
    let g := f.modChan c (fun ch =>
      { ch with queue := q.take keep, discarded := bump ch.discarded (q.drop keep).length
                credit := 0, pass := 0, state := .disabled })
    { g with free := g.free ++ (q.drop keep).map (·.frame.buf) }
  t.flagPart.onFloor (Floor.sweep t.env)

/-- CHANNEL SET (R160). -/
def State.runChannelSet (channel enable : Byte) (s : State) : Executed :=
  match chanArg channel, yesNoArg enable with
  | some c, some on =>
    match s.floor.chans[c].state, on with
    | .disabled, true =>
      (s.onFloor (fun f => f.modChan c (fun ch =>
        { ch with state := .pending, credit := 0 }))).flagPart.done
    | .disabled, false => s.done
    | .pending, true | .opened, true => s.done
    | .pending, false | .opened, false => (s.disableChannel c).done
  | _, _ => s.refuse .badArgument

/-- CHANNEL_SET_ENABLE: CHANNEL SET with an enable character other than 0 (R160). -/
def execChannelSetEnable (tag channel enable : Byte) (s : State) :
    Host.Outcome State Fault Refusal :=
  request 2 tag (State.runChannelSet channel enable) s

/-- CHANNEL_SET_DISABLE: CHANNEL SET without enable (R160). -/
def execChannelSetDisable (tag channel : Byte) (s : State) : Host.Outcome State Fault Refusal :=
  request 2 tag (State.runChannelSet channel 0) s

/-- A lane frame kind 1 to 11, by its place in the map (R162). -/
def kindArg (b : Byte) : Option (Fin 11) :=
  if h : 1 ≤ b.toNat ∧ b.toNat ≤ 11 then some ⟨b.toNat - 1, by omega⟩ else none

/-- MAP SET (R162). -/
def State.runMapSet (kind channel : Byte) (s : State) : Executed :=
  match kindArg kind, mapArg channel with
  | some k, some c =>
    let t := { s with map := upd s.map k c }
    (t.onFloor (Floor.sweep t.env)).done
  | _, _ => s.refuse .badArgument

/-- MAP_SET (R162). -/
def execMapSet (tag kind channel : Byte) (s : State) : Host.Outcome State Fault Refusal :=
  request 3 tag (State.runMapSet kind channel) s

end Sys2Proof.Machine
end

