-- ==== Sys2Proof/Machine/ConsoleRequests.lean ====
section
/-! DEFINITION. The console requests (R66 to R74). -/

namespace Sys2Proof.Machine

/-! ## Arguments (R51, R66) -/

/-- A record id's slot and issue; none where it is no id at all (R51). -/
def idArg (slot issue : Byte) : Option (SlotIx × BitVec 4) :=
  match finArg 48 slot with
  | none => none
  | some k => if issue.toNat ≤ 15 then some (k, issue.setWidth 4) else none

/-- The record of a live id; none where the id is stale (R51). -/
def Desk.live (d : Desk) (id : SlotIx × BitVec 4) : Option Record :=
  if d.slots[id.1].issue = id.2 then d.recAt id.1 else none

/-- The checks of R66 for a request with a console and a record id. -/
def State.withRecord (s : State) (console slot issue : Byte)
    (run : ConsoleIx → SlotIx → Record → Executed) : Executed :=
  match finArg 4 console, idArg slot issue with
  | some c, some id =>
    match s.floor.desk.live id with
    | some r => run c id.1 r
    | none => s.refuse .notFound
  | _, _ => s.refuse .badArgument

/-! ## CONSOLE ON and OFF (R73, R74) -/

/-- An ABSENT console joins the roster (R73, log 27). -/
def Desk.join (d : Desk) (p : Params) (zones : Vector LaneSet 4) (c : ConsoleIx) : Desk :=
  ((d.toFree c).modConsole c (fun x => { x with pending := false })).checkWaiting p zones

/-- CONSOLE ON (R73). -/
def State.runConsoleOn (console : Byte) (s : State) : Executed :=
  match finArg 4 console with
  | none => s.refuse .badArgument
  | some c =>
    match (s.floor.desk.console c).state with
    | .absent => (s.onDesk (fun d => d.join s.params s.tables.zones c)).done
    | .free | .offered _ | .busy _ => s.done

/-- CONSOLE_ON (R73). -/
def execConsoleOn (tag console : Byte) (s : State) : Host.Outcome State Fault Refusal :=
  request 19 tag (State.runConsoleOn console) s

/-- A record whose console leaves the roster (R74). -/
def Record.consoleLeft (p : Params) (r : Record) : Record :=
  match r.state with
  | .waiting => r
  | .offered _ _ => r.unoffered
  | .claimed _ => r.unclaimed p
  | .attending _ => { r with state := .attending none }

/-- A present console leaves the roster (R74). -/
def Desk.leave (d : Desk) (p : Params) (zones : Vector LaneSet 4) (c : ConsoleIx) : Desk :=
  let d1 := match (d.console c).state with
    | .offered k | .busy k => d.modRec k (Record.consoleLeft p)
    | .absent | .free => d
  let d2 := (d1.modConsole c (fun x => { x with state := .absent, saved := none })).mark c .loggedOff
  { ({ d2 with freeOrder := d2.freeOrder.filter (· != c) }).checkWaiting p zones with
      dispatchDue := true }

/-- CONSOLE OFF (R74). -/
def State.runConsoleOff (console : Byte) (s : State) : Executed :=
  match finArg 4 console with
  | none => s.refuse .badArgument
  | some c =>
    match (s.floor.desk.console c).state with
    | .absent => s.done
    | .free | .offered _ | .busy _ => (s.onDesk (fun d => d.leave s.params s.tables.zones c)).done

/-- CONSOLE_OFF (R74). -/
def execConsoleOff (tag console : Byte) (s : State) : Host.Outcome State Fault Refusal :=
  request 20 tag (State.runConsoleOff console) s

/-! ## CLAIM (R67, R68) -/

/-- A successful CLAIM of record `r` in slot `k` by console `c` (R68). -/
def Desk.claim (d : Desk) (p : Params) (c : ConsoleIx) (k : SlotIx) (r : Record) : Desk :=
  let d1 := match r.state with
    | .offered o sent => if o = c then d else d.unofferTo o sent .withdrawn
    | .waiting | .claimed _ | .attending _ => d
  let d2 := match (d.console c).state with
    | .offered j => if j = k then d1 else d1.modRec j Record.unoffered
    | .absent | .free | .busy _ => d1
  let d3 := d2.modRec k (fun r =>
    { r with state := .claimed c, offer := none, claim := some p.claim, escal := none })
  let d4 := (d3.modConsole c (fun x => { x with state := .busy k, saved := none })).mark c .claimed
  { d4 with freeOrder := d4.freeOrder.filter (· != c), dispatchDue := true }

/-- CLAIM (R67). -/
def State.runClaim (console slot issue : Byte) (s : State) : Executed :=
  s.withRecord console slot issue fun c k r =>
    match (s.floor.desk.console c).state with
    | .absent | .busy _ => s.refuse .badState
    | .free | .offered _ =>
      match r.state with
      | .claimed _ | .attending _ => s.refuse .taken
      | .waiting | .offered _ _ => (s.onDesk (fun d => d.claim s.params c k r)).done

/-- CLAIM (R67, R68). -/
def execClaim (tag console slot issue : Byte) (s : State) : Host.Outcome State Fault Refusal :=
  request 21 tag (State.runClaim console slot issue) s

/-! ## DECLINE (R69) -/

/-- A record returns to WAITING with the console in its declined set (R65, R69). -/
def Record.declinedBy (c : ConsoleIx) (r : Record) : Record :=
  { r.unoffered with declined := addConsole r.declined c }

/-- A DECLINE that is taken (R69). -/
def Desk.decline (d : Desk) (p : Params) (zones : Vector LaneSet 4) (c : ConsoleIx) (k : SlotIx)
    (sent : Bool) : Desk :=
  let d1 := d.modRec k (Record.declinedBy c)
  let d2 := if sent then d1.toFree c else d1.freeUnsent c
  { d2.checkExhausted p zones true k with dispatchDue := true }

/-- DECLINE (R69). -/
def State.runDecline (console slot issue : Byte) (s : State) : Executed :=
  s.withRecord console slot issue fun c k r =>
    match r.state with
    | .offered o sent =>
      if o = c then (s.onDesk (fun d => d.decline s.params s.tables.zones c k sent)).done
      else s.refuse .badState
    | .waiting | .claimed _ | .attending _ => s.refuse .badState

/-- DECLINE (R69). -/
def execDecline (tag console slot issue : Byte) (s : State) : Host.Outcome State Fault Refusal :=
  request 22 tag (State.runDecline console slot issue) s

/-! ## RELEASE (R70) -/

/-- A RELEASE that is taken (R70). -/
def Desk.release (d : Desk) (p : Params) (c : ConsoleIx) (k : SlotIx) : Desk :=
  (d.modRec k (Record.unclaimed p)).toFree c

/-- RELEASE (R70). -/
def State.runRelease (console slot issue : Byte) (s : State) : Executed :=
  s.withRecord console slot issue fun c k r =>
    if r.state = .claimed c then (s.onDesk (fun d => d.release s.params c k)).done
    else s.refuse .badState

/-- RELEASE (R70). -/
def execRelease (tag console slot issue : Byte) (s : State) : Host.Outcome State Fault Refusal :=
  request 23 tag (State.runRelease console slot issue) s

/-! ## RESOLVE (R71) -/

/-- The record is CLAIMED or ATTENDING with the console as claimed-by (R71). -/
def RecState.heldBy (st : RecState) (c : ConsoleIx) : Bool :=
  st == .claimed c || st == .attending (some c)

/-- The remote effect of a CLEAR on the lane (R71). -/
def Lane.clearedRemotely (r : Reason) (x : Lane) : Lane :=
  if r = .weight then
    { x with totals := { x.totals with expected := x.totals.bag.getD 0 } }
  else x

/-- A CLEAR that is taken: the remote effect, the resolution, and the deferred pass (R36, R71). -/
def Floor.clearRemotely (e : Env) (l : LaneIx) (r : Reason) (f : Floor) : Floor :=
  let raised := (f.lane l).has r
  let g := (f.modLane l (Lane.clearedRemotely r)).resolve l r
  if raised then g.pass e l else g

/-- RESOLVE (R71): action 0 CLEAR, 1 REFER (11.2). -/
def State.runResolve (console slot issue action : Byte) (s : State) : Executed :=
  match yesNoArg action with
  | none => s.refuse .badArgument
  | some refer =>
    s.withRecord console slot issue fun c k r =>
      if r.state.heldBy c = false then s.refuse .badState
      else if refer then
        (s.onDesk (fun d => d.modRec k (fun r => { r with needsPresence := true }))).done
      else if r.reason = .link then s.refuse .badState
      else if r.needsPresence then s.refuse .presenceRequired
      else (s.onFloor (Floor.clearRemotely s.env r.lane r.reason)).done

/-- RESOLVE_CLEAR: RESOLVE with an action character other than 1 (R71). -/
def execResolveClear (tag console slot issue action : Byte) (s : State) :
    Host.Outcome State Fault Refusal :=
  request 24 tag (State.runResolve console slot issue action) s

/-- RESOLVE_REFER: RESOLVE with action REFER (R71). -/
def execResolveRefer (tag console slot issue : Byte) (s : State) :
    Host.Outcome State Fault Refusal :=
  request 24 tag (State.runResolve console slot issue 1) s

end Sys2Proof.Machine
end

