-- ==== Sys2Proof/Machine/Expiries.lean ====
section
/-! DEFINITION. The expiries of the timers (R174): each is taken where its timer's count has reached 0. -/

namespace Sys2Proof.Machine

/-- An expiry is taken where it is due, and ends as every event does (R174, log 3). -/
def whenDue (due : State → Bool) (s : State) (f : State → State) :
    Host.Outcome State Fault Refusal :=
  whenRunning s (fun s => if due s then (f s).finish else s)

/-! ## Lane timers -/

/-- What the bag settle expiry finds (R25): the detail WEIGHT is raised with, or none. -/
def Lane.settleFinding (p : Params) (x : Lane) : Option Int :=
  match x.totals.bag with
  | none => some (-(x.totals.expected : Int))
  | some m =>
    if inTolerance p.baseTolerance x.totals.tolerance m x.totals.expected then none
    else some (diff m x.totals.expected)

/-- The bag settle timer expires (R25). -/
def Floor.bagSettled (e : Env) (l : LaneIx) (f : Floor) : Floor :=
  let g := (f.modLane l (fun x => { x with bagSettle := none })).touch l
  match (f.lane l).settleFinding e.params with
  | some d => g.raise e l .weight (some (.grams d)) none
  | none => g

/-- BAG_SETTLE_EXPIRY (R25). -/
def execBagSettleExpiry (l : LaneIx) (s : State) : Host.Outcome State Fault Refusal :=
  whenDue (fun s => timerDue (s.floor.lane l).bagSettle) s
    (fun s => s.onFloor (Floor.bagSettled s.env l))

/-- The inactivity timer expires: IDLE is raised (R27). -/
def Floor.wentIdle (e : Env) (l : LaneIx) (f : Floor) : Floor :=
  (f.modLane l (fun x => { x with inactivity := none })).raise e l .idle none none

/-- INACTIVITY_EXPIRY (R27). -/
def execInactivityExpiry (l : LaneIx) (s : State) : Host.Outcome State Fault Refusal :=
  whenDue (fun s => timerDue (s.floor.lane l).inactivity) s
    (fun s => s.onFloor (Floor.wentIdle s.env l))

/-- The presence timer expires: the session closes and the expiry is counted (R84, R87). -/
def Floor.sessionExpired (p : Params) (l : LaneIx) (f : Floor) : Floor :=
  let g := (f.modLane l (fun x => { x with presence := none })).closeSession p l
  { g with presence := { g.presence with sessionExpiries := bump g.presence.sessionExpiries } }

/-- PRESENCE_EXPIRY (R87). -/
def execPresenceExpiry (l : LaneIx) (s : State) : Host.Outcome State Fault Refusal :=
  whenDue (fun s => timerDue (s.floor.lane l).presence) s
    (fun s => s.onFloor (Floor.sessionExpired s.params l))

/-- REFUSAL_MESSAGE_EXPIRY (R47): the refusal message becomes absent. -/
def execRefusalMessageExpiry (l : LaneIx) (s : State) : Host.Outcome State Fault Refusal :=
  whenDue (fun s => timerDue (s.floor.lane l).refusalTimer) s
    (fun s => s.onFloor (fun f =>
      (f.modLane l (fun x => { x with refusal := none, refusalTimer := none })).touch l))

/-! ## Record timers -/

/-- A timer of the record in a slot is due. -/
def State.recordDue (k : SlotIx) (timer : Record → Timer) (s : State) : Bool :=
  (s.floor.desk.recAt k).any (fun r => timerDue (timer r))

/-- ESCALATION_EXPIRY (R57): the record rises one class, and its timer is reloaded or stopped. -/
def execEscalationExpiry (k : SlotIx) (s : State) : Host.Outcome State Fault Refusal :=
  whenDue (State.recordDue k (·.escal)) s
    (fun s => s.onDesk (fun d =>
      d.modRec k (fun r => ({ r with escal := none }).rise s.params)))

/-- The offer of a record lapses (R65). -/
def Desk.offerLapsed (d : Desk) (p : Params) (zones : Vector LaneSet 4) (k : SlotIx)
    (r : Record) : Desk :=
  match r.state with
  | .offered c _ =>
    let d1 := { d with offerExpiries := bump d.offerExpiries }
    let d2 := d1.modRec k (fun r =>
      { r.unoffered with declined := addConsole r.declined c })
    (d2.checkExhausted p zones true k).freeWith c .withdrawn
  | .waiting | .claimed _ | .attending _ => d.modRec k (fun r => { r with offer := none })

/-- OFFER_EXPIRY (R65). -/
def execOfferExpiry (k : SlotIx) (s : State) : Host.Outcome State Fault Refusal :=
  whenDue (State.recordDue k (·.offer)) s
    (fun s => s.onDesk (fun d =>
      match d.recAt k with
      | some r => d.offerLapsed s.params s.tables.zones k r
      | none => d))

/-- A claim is recalled at the claim limit (R72). -/
def Desk.claimRecalled (d : Desk) (p : Params) (k : SlotIx) (r : Record) : Desk :=
  match r.state with
  | .claimed c =>
    let d1 := { d with claimRecalls := bump d.claimRecalls }
    (d1.modRec k (fun r => (r.unclaimed p).rise p)).freeWith c .recalled
  | .waiting | .offered _ _ | .attending _ => d.modRec k (fun r => { r with claim := none })

/-- CLAIM_EXPIRY (R72). -/
def execClaimExpiry (k : SlotIx) (s : State) : Host.Outcome State Fault Refusal :=
  whenDue (State.recordDue k (·.claim)) s
    (fun s => s.onDesk (fun d =>
      match d.recAt k with
      | some r => d.claimRecalled s.params k r
      | none => d))

/-! ## The wake settle timer -/

/-- A line becomes ACTIVE after its wake (R134). -/
def Line.awake (x : Line) : Line :=
  { x with state := .active, settle := none, pos := 0, round := 0, roundServed := false
           idleWait := false }

/-- WAKE_SETTLE_EXPIRY (R134): the line is prepared for polling, and its first turn begins. -/
def execWakeSettleExpiry (n : LineIx) (s : State) : Host.Outcome State Fault Refusal :=
  whenRunning s fun s =>
    if timerDue (s.line n).settle then
      (((s.prepareLine n).modLine n Line.awake).settle.nextTurn n).arbiter
    else s

end Sys2Proof.Machine
end

