-- ==== Sys2Proof/Machine/LaneRequests.lean ====
section
/-! DEFINITION. The lane and line requests: LANE OPEN, CLOSE and RESET (R5 to R9), INPUT SET (R136), LINE
QUIET and WAKE (R133, R134). -/

namespace Sys2Proof.Machine

/-! ## Lanes -/

/-- LINK is raised where the drop's trouble holds and LINK is not raised (R5). -/
def Floor.raiseLink (e : Env) (l : LaneIx) (f : Floor) : Floor :=
  if (f.lane l).drop.trouble && !(f.lane l).has .link then f.raise e l .link none none else f

/-- LANE OPEN (R5). -/
def State.runLaneOpen (lane : Byte) (s : State) : Executed :=
  match finArg 24 lane with
  | none => s.refuse .badArgument
  | some l =>
    match (s.floor.lane l).state with
    | .closed =>
      if s.tables.current.isNone then s.refuse .noTables
      else
        let t := s.onFloor (fun f => (f.enter l .ready).raiseLink s.env l)
        (t.modLine (lineOf l) Line.wake).done
    | .closingScan => (s.onFloor (fun f => f.enter l .scanning)).done
    | .closingPay => (s.onFloor (fun f => f.enter l .paying)).done
    | .ready | .scanning | .paying => s.done

/-- LANE_OPEN (R5). -/
def execLaneOpen (tag lane : Byte) (s : State) : Host.Outcome State Fault Refusal :=
  request 13 tag (State.runLaneOpen lane) s

/-- LANE CLOSE without FORCE on a lane (R6). -/
def Floor.closeLane (l : LaneIx) (f : Floor) : Floor :=
  match (f.lane l).state with
  | .ready => f.enterClosed l
  | .scanning => f.enter l .closingScan
  | .paying => f.enter l .closingPay
  | .closed | .closingScan | .closingPay => f

/-- LANE CLOSE with FORCE on a lane (R7): the session closes, the transaction ends cancelled, and the
lane enters CLOSED. -/
def Floor.forceClose (p : Params) (l : LaneIx) (f : Floor) : Floor :=
  let g := f.closeSession p l
  match (g.lane l).state with
  | .closed => g
  | .ready => g.enterClosed l
  | .closingScan | .closingPay => (g.endTxn l).1
  | .scanning | .paying => (g.endTxn l).1.enterClosed l

/-- LANE CLOSE (R6, R7). -/
def State.runLaneClose (lane force : Byte) (s : State) : Executed :=
  match finArg 24 lane, yesNoArg force with
  | some l, some false => (s.onFloor (Floor.closeLane l)).done
  | some l, some true => (s.onFloor (Floor.forceClose s.params l)).done
  | _, _ => s.refuse .badArgument

/-- LANE_CLOSE: LANE CLOSE with a FORCE character other than 1 (R6). -/
def execLaneClose (tag lane force : Byte) (s : State) : Host.Outcome State Fault Refusal :=
  request 14 tag (State.runLaneClose lane force) s

/-- LANE_CLOSE_FORCE: LANE CLOSE with FORCE (R7). -/
def execLaneCloseForce (tag lane : Byte) (s : State) : Host.Outcome State Fault Refusal :=
  request 14 tag (State.runLaneClose lane 1) s

/-- The lane state after a lane reset (R8). -/
def LaneState.afterReset : LaneState → LaneState
  | .ready | .scanning | .paying => .ready
  | .closed | .closingScan | .closingPay => .closed

/-- The fields a lane reset clears (R8, R47). The last accepted sequence goes in every case, as R139 and R155
have it, also where R149 says that a frame accepted before the reset stays acknowledged; that is the model's
choice (log 34). -/
def Lane.cleared (x : Lane) : Lane :=
  { x with
      totals := {}
      stack := []
      bagSettle := none
      inactivity := none
      refusal := none
      refusalTimer := none
      refusalMark := false
      help := {}
      call := { x.call with pending := false }
      drop := { x.drop with lastSeq := none } }

/-- LANE RESET on a lane (R8, R48): session, transaction, raised set, deferred list, totals, timers, link
record; LINK again where trouble holds; and a directive word with a new generation. -/
def Floor.resetLane (e : Env) (l : LaneIx) (f : Floor) : Floor :=
  let st := (f.lane l).state.afterReset
  let g := f.closeSession e.params l
  let g := if (g.lane l).state.inTxn then (g.endTxn l).1 else g
  let g := g.removeAll l (g.lane l).reasons
  let g := (g.freeDeferred l).modLane l Lane.cleared
  let g := (g.enter l st).insertions e.params
  let g := if st = .ready ∧ (g.lane l).drop.trouble = true then g.raise e l .link none none else g
  g.modLane l (Lane.derive true)

/-- LANE RESET (R8). -/
def State.runLaneReset (lane : Byte) (s : State) : Executed :=
  match finArg 24 lane with
  | none => s.refuse .badArgument
  | some l => (s.onFloor (Floor.resetLane s.env l)).done

/-- LANE_RESET (R8). -/
def execLaneReset (tag lane : Byte) (s : State) : Host.Outcome State Fault Refusal :=
  request 15 tag (State.runLaneReset lane) s

/-- INPUT SET (R136). -/
def State.runInputSet (lane enable edge : Byte) (s : State) : Executed :=
  match finArg 24 lane, yesNoArg enable, edgeArg edge with
  | some l, some on, some ed =>
    (s.onFloor (fun f => f.modLane l (fun x =>
      { x with call := { x.call with enabled := on, edge := ed } }))).done
  | _, _, _ => s.refuse .badArgument

/-- INPUT_SET (R136). -/
def execInputSet (tag lane enable edge : Byte) (s : State) : Host.Outcome State Fault Refusal :=
  request 16 tag (State.runInputSet lane enable edge) s

/-! ## Lines -/

/-- All six lanes of a line are CLOSED (R133). -/
def State.lineClosed (s : State) (n : LineIx) : Bool :=
  allDrops.all (fun d => (s.floor.lane (laneOf n d)).state == .closed)

/-- LINE QUIET (R133). -/
def State.runLineQuiet (line : Byte) (s : State) : Executed :=
  match finArg 4 line with
  | none => s.refuse .badArgument
  | some n =>
    let x := s.line n
    match x.state with
    | .quiet => s.done
    | .waking => s.refuse .badState
    | .active =>
      if x.quietPending then s.done
      else if s.lineClosed n = false then s.refuse .badState
      else if x.turn.isNone then (s.enterQuiet n).done
      else (s.modLine n (fun x => { x with quietPending := true })).done

/-- LINE_QUIET (R133). -/
def execLineQuiet (tag line : Byte) (s : State) : Host.Outcome State Fault Refusal :=
  request 17 tag (State.runLineQuiet line) s

/-- LINE WAKE (R134). -/
def State.runLineWake (line : Byte) (s : State) : Executed :=
  match finArg 4 line with
  | none => s.refuse .badArgument
  | some n => (s.modLine n Line.wake).done

/-- LINE_WAKE (R134). -/
def execLineWake (tag line : Byte) (s : State) : Host.Outcome State Fault Refusal :=
  request 18 tag (State.runLineWake line) s

end Sys2Proof.Machine
end

