-- ==== Sys2Proof/Machine/LineEvents.lean ====
section
/-! DEFINITION. The events of a lane line: the phases and outcomes of a turn, breaks, strays and idle
rounds (R119, R122, R125 to R132, R134). -/

namespace Sys2Proof.Machine

/-- The turn of a line in a phase. -/
def State.turnIn (s : State) (n : LineIx) (ph : Phase) : Option Turn :=
  match (s.line n).turn with
  | some u => if u.phase = ph then some u else none
  | none => none

/-- What an event of a turn's phase does; a line that is not in that phase is left alone (log 2). -/
def whenPhase (n : LineIx) (ph : Phase) (s : State) (f : Turn → State → State) :
    Host.Outcome State Fault Refusal :=
  whenRunning s (fun s =>
    match s.turnIn n ph with
    | some u => f u s
    | none => s)

/-- The turn enters a phase (R125). -/
def State.enterPhase (s : State) (n : LineIx) (ph : Phase) : State :=
  s.modLine n (fun x => { x with turn := x.turn.map (fun u => { u with phase := ph }) })

/-- POLL_END (R125): the last character of the POLL has been sent; the answer window begins. -/
def execPollEnd (n : LineIx) (s : State) : Host.Outcome State Fault Refusal :=
  whenPhase n .sending s (fun _ s => s.enterPhase n .window)

/-- ANSWER_START (R125): the start of the first answer character; reception begins. -/
def execAnswerStart (n : LineIx) (s : State) : Host.Outcome State Fault Refusal :=
  whenPhase n .window s (fun _ s => s.enterPhase n .receiving)

/-- MISS (R129): the answer window closes with no answer started. -/
def execMiss (n : LineIx) (s : State) : Host.Outcome State Fault Refusal :=
  whenPhase n .window s (fun u s => (s.judgeDrop n u.drop .miss).endTurn n)

/-- DAMAGED_ANSWER (R126): the answer is found damaged. -/
def execDamagedAnswer (n : LineIx) (s : State) : Host.Outcome State Fault Refusal :=
  whenPhase n .receiving s (fun u s => s.endDamaged n u.drop)

/-- ANSWER_TRUNCATED (R126): a silence within the answer makes it damaged. -/
def execAnswerTruncated (n : LineIx) (s : State) : Host.Outcome State Fault Refusal :=
  whenPhase n .receiving s (fun u s => s.endDamaged n u.drop)

/-- GOOD_ANSWER (R127): the characters received, judged by R118 and R126. Characters after the answer are
strays, whether it is good or damaged (R132, log 17). -/
def execGoodAnswer (n : LineIx) (chars : List RxChar) (s : State) :
    Host.Outcome State Fault Refusal :=
  whenPhase n .receiving s fun u s =>
    let r := receiveAnswer u.drop chars
    let t := match r.1 with
      | none => s.judgeDrop n u.drop .damaged
      | some a => (s.judgeDrop n u.drop (.good a.noisy)).takeAnswer n u a
    (t.modLine n (Line.countStrays r.2.length)).endTurn n

/-- A recognised break on an ACTIVE line (R131): an attention round becomes due, unless one is due or
active; quiet pending is cleared (log 19). -/
def Line.broken (x : Line) : Line :=
  match x.attention with
  | .inactive =>
    { x with attention := .due, quietPending := false
             counters := { x.counters with breaks := bump x.counters.breaks } }
  | .due | .active _ =>
    { x with quietPending := false
             counters := { x.counters with ignoredBreaks := bump x.counters.ignoredBreaks } }

/-- A break wakes a QUIET line (R134). -/
def Line.brokenQuiet (x : Line) : Line :=
  { x with counters := { x.counters with breaks := bump x.counters.breaks } }.wake

/-- A break on an ACTIVE line: within a turn it damages the answer (R119); between turns the attention
round starts before the next turn (R131). While the driver is on it is not recognised. -/
def State.breakActive (s : State) (n : LineIx) : State :=
  match (s.line n).turn with
  | some u =>
    match u.phase with
    | .sending => s
    | .window | .receiving => (s.modLine n Line.broken).endDamaged n u.drop
  | none => ((s.modLine n Line.broken).nextTurn n).arbiter

/-- BREAK (R119, R131, R134). -/
def execLineBreak (n : LineIx) (s : State) : Host.Outcome State Fault Refusal :=
  whenRunning s fun s =>
    match (s.line n).state with
    | .active => s.breakActive n
    | .quiet => s.modLine n Line.brokenQuiet
    | .waking => s

/-- STRAY (R132): a data character outside any answer the controller is expecting; a false start is not
counted (R118). -/
def execStray (n : LineIx) (char : RxChar) (s : State) : Host.Outcome State Fault Refusal :=
  whenRunning s fun s =>
    let expected := match (s.line n).turn with
      | some u => u.phase != .sending
      | none => false
    if expected || rxFalseStart char then s else s.modLine n (Line.countStrays 1)

/-- IDLE_ROUND_END (R122): the idle interval ends, and drop 0 of the next round is considered. -/
def execIdleRoundEnd (n : LineIx) (s : State) : Host.Outcome State Fault Refusal :=
  whenRunning s fun s =>
    if (s.line n).idleWait then
      ((s.modLine n (fun x => { x with idleWait := false })).nextTurn n).arbiter
    else s

end Sys2Proof.Machine
end

