-- ==== Sys2Proof/Machine/Reads.lean ====
section
/-! DEFINITION. The reads (R183 to R186) and the settings (R173, R187, R191). -/

namespace Sys2Proof.Machine

/-! ## Reads -/

/-- READ LANE (R183). -/
def State.runReadLane (lane page : Byte) (s : State) : Executed :=
  s.answerRead ((finArg 24 lane).bind (fun l => lanePage (s.floor.lane l) page.toNat))

/-- READ_LANE (R183). -/
def execReadLane (tag lane page : Byte) (s : State) : Host.Outcome State Fault Refusal :=
  request 25 tag (State.runReadLane lane page) s

/-- READ QUEUE (R184). -/
def State.runReadQueue (list start : Byte) (s : State) : Executed :=
  s.answerRead (queuePage s.floor s.params list.toNat start.toNat)

/-- READ_QUEUE (R184). -/
def execReadQueue (tag list start : Byte) (s : State) : Host.Outcome State Fault Refusal :=
  request 26 tag (State.runReadQueue list start) s

/-- READ STATUS: page 4 PART, its own slot counted, or a line (R181, R185). -/
def State.runReadStatus (page : Byte) (s : State) : Executed :=
  s.answerRead (if page = 4 then some (partPage s 1) else (finArg 4 page).map (linePage s))

/-- READ_STATUS (R185). -/
def execReadStatus (tag page : Byte) (s : State) : Host.Outcome State Fault Refusal :=
  request 27 tag (State.runReadStatus page) s

/-- The counters of a group cleared (R186). -/
def State.clearCounters (s : State) : CounterGroup → State
  | .lane l => s.onFloor (fun f => f.modLane l (fun x => { x with counters := {} }))
  | .line n => s.modLine n (fun x => { x with counters := {} })
  | .part =>
    { s with
        mgmt := { s.mgmt with lost := 0 }
        link := { s.link with skipped := 0, badLength := 0, truncated := 0, badCheck := 0
                              wrongChannel := 0 }
        poolEmpty := 0
        floor := { s.floor with
          chans := Vector.ofFn (fun c => { s.floor.chans[c] with sent := 0, discarded := 0 })
          desk := { s.floor.desk with unqueuedRaises := 0, offerExpiries := 0, claimRecalls := 0 }
          presence := {} } }

/-- READ COUNTERS (R186): the values are placed in the response before they are cleared. -/
def State.runReadCounters (group clear : Byte) (s : State) : Executed :=
  match counterGroup group, yesNoArg clear with
  | some g, some wipe =>
    { state := if wipe then s.clearCounters g else s, outcome := .done
      results := (s.counters g).flatMap num2c }
  | _, _ => s.refuse .badArgument

/-- READ_COUNTERS (R186). -/
def execReadCounters (tag group clear : Byte) (s : State) : Host.Outcome State Fault Refusal :=
  request 28 tag (State.runReadCounters group clear) s

/-! ## Settings -/

/-- A value within a range. -/
def within (lo hi v : Nat) : Bool := decide (lo ≤ v ∧ v ≤ hi)

/-- The parameters with one set; none for an unused number or a value out of range (R187, 11.2). Mask bits
without a name are ignored (R194, log 29). -/
def Params.put (p : Params) (number value : Nat) : Option Params :=
  match number with
  | 1 => if within 0 500 value then some { p with baseTolerance := value } else none
  | 2 => if within 0 10000 value then some { p with toleranceCap := value } else none
  | 3 => if within 0 9999999 value then some { p with highLimit := value } else none
  | 4 => if within 10 600 value then some { p with bagSettle := value } else none
  | 5 => if within 100 6000 value then some { p with inactivity := value } else none
  | 6 => if within 100 6000 value then some { p with presence := value } else none
  | 7 => if within 20 600 value then some { p with offer := value } else none
  | 8 => if within 300 9000 value then some { p with claim := value } else none
  | 9 => if within 50 6000 value then some { p with escal0 := value } else none
  | 10 => if within 50 6000 value then some { p with escal1 := value } else none
  | 11 => if within 50 6000 value then some { p with escal2 := value } else none
  | 22 => some { p with mask := BitVec.ofNat 3 value }
  | n =>
    if h : 12 ≤ n ∧ n ≤ 21 then
      if h2 : value < 4 then
        some { p with base := upd p.base ⟨n - 12, by omega⟩ ⟨value, h2⟩ }
      else none
    else none

/-- SET PARAM (R187). -/
def State.runSetParam (param : Byte) (value : BitVec 24) (s : State) : Executed :=
  match s.params.put param.toNat value.toNat with
  | some p => { s with params := p }.done
  | none => s.refuse .badArgument

/-- SET_PARAM (R187). -/
def execSetParam (tag param : Byte) (value : BitVec 24) (s : State) :
    Host.Outcome State Fault Refusal :=
  request 29 tag (State.runSetParam param value) s

/-- SET_TIME (R173). -/
def execSetTime (tag : Byte) (value : Stamp) (s : State) : Host.Outcome State Fault Refusal :=
  request 30 tag (fun s => { s with storeTime := value }.done) s

/-- PART_RESET (R191): the reset is pending from the taking of the request. -/
def execPartReset (tag : Byte) (s : State) : Host.Outcome State Fault Refusal :=
  request 31 tag (fun s => { s with mgmt := { s.mgmt with resetPending := true } }.done) s

end Sys2Proof.Machine
end

