-- ==== Sys2Proof/Machine/Receiver.lean ====
section
/-! DEFINITION. The store link receiver's findings (R157, R170) and requests that are lost or unknown
(R179, R180). -/

namespace Sys2Proof.Machine

/-- What the receiver does with characters while the link is UP; they are discarded without being counted
while it is DOWN (R157). -/
def whenUp (s : State) (f : State → State) : Host.Outcome State Fault Refusal :=
  whenRunning s (fun s => if s.linkUp then f s else s)

/-- START_CHARACTER (R157): the receiver enters MESSAGE; within a message it is one of its characters. -/
def execStartCharacter (s : State) : Host.Outcome State Fault Refusal :=
  whenUp s (fun s => { s with link := { s.link with rx := .message 0 } })

/-- SKIPPED_CHARACTER (R157): discarded and counted in HUNT; within a message it is one of its
characters. -/
def execSkippedCharacter (s : State) : Host.Outcome State Fault Refusal :=
  whenUp s fun s =>
    match s.link.rx with
    | .hunt => { s with link := { s.link with skipped := bump s.link.skipped } }
    | .message _ => { s with link := { s.link with rx := .message 0 } }

/-- BAD_LENGTH (R157). -/
def execBadLength (s : State) : Host.Outcome State Fault Refusal :=
  whenUp s fun s =>
    { s with link := { s.link with rx := .hunt, badLength := bump s.link.badLength } }

/-- TRUNCATED (R157): taken in MESSAGE once two ticks have passed since the last character. -/
def execTruncated (s : State) : Host.Outcome State Fault Refusal :=
  whenUp s fun s =>
    match s.link.rx with
    | .hunt => s
    | .message t =>
      if Config.truncationTicks ≤ t then
        { s with link := { s.link with rx := .hunt, truncated := bump s.link.truncated } }
      else s

/-- BAD_CHECK (R157). -/
def execBadCheck (s : State) : Host.Outcome State Fault Refusal :=
  whenUp s fun s =>
    { s with link := { s.link with rx := .hunt, badCheck := bump s.link.badCheck } }

/-- WRONG_CHANNEL (R157). -/
def execWrongChannel (s : State) : Host.Outcome State Fault Refusal :=
  whenUp s fun s =>
    { s with link := { s.link with rx := .hunt, wrongChannel := bump s.link.wrongChannel } }

/-- LOST_REQUEST (R179): a request that finds no slot free is discarded and counted; one that finds a
PART RESET pending is discarded without a count. Where a slot is free no request is lost (log 10). -/
def execLostRequest (s : State) : Host.Outcome State Fault Refusal :=
  whenUp s fun s =>
    if s.mgmt.resetPending then s.hunt
    else if Config.maxSlots ≤ s.mgmt.slots.length then s.hunt.loseRequest.arbiter
    else s

/-- UNKNOWN_REQUEST (R180): a kind outside the catalogue or a wrong length is answered BAD_ARGUMENT. A
request of the catalogue is none (log 10). -/
def execUnknownRequest (tag : Byte) (kind : BitVec 6) (content : List Byte) (s : State) :
    Host.Outcome State Fault Refusal :=
  if (catalogueRequest kind.toNat tag content).isSome then .next s
  else request kind tag (fun s => s.refuse .badArgument) s

end Sys2Proof.Machine
end

