-- ==== Sys2Proof/Machine/TableRequests.lean ====
section
/-! DEFINITION. The table requests: loads and commits of the article banks (R105 to R111), the badge list
(R88, R114, R115) and the zone table (R116). -/

namespace Sys2Proof.Machine

/-- The state with a bank replaced. -/
def State.setBank (s : State) (bk : BankId) (x : Bank) : State :=
  { s with tables := s.tables.setBank bk x }

/-- A bank's state set, with the PART flag (R103). -/
def State.setBankState (s : State) (bk : BankId) (st : BankState) : State :=
  (s.setBank bk { s.tables.bank bk with state := st }).flagPart

/-! ## Loads -/

/-- A load conflict (R106): the LOADING bank becomes INVALID and the LOAD_CONFLICT flag is set. -/
def State.loadConflict (s : State) (loading : BankId) : State :=
  let t := s.setBankState loading .invalid
  { t with mgmt := { t.mgmt with conflictSeen := true } }

/-- LOAD BEGIN (R105, R106). -/
def State.runLoadBegin (bank : Byte) (groups : BitVec 16) (watch : Byte) (s : State) : Executed :=
  match bankArg bank with
  | none => s.refuse .badArgument
  | some bk =>
    if 1024 < groups.toNat ∨ 128 < watch.toNat then s.refuse .badArgument
    else if (s.tables.bank bk).state = .current then s.refuse .badState
    else if 0 < s.floor.pinCount bk then s.refuse .bankPinned
    else
      match s.tables.loading with
      | some other => { state := s.loadConflict other, outcome := .loadConflict }
      | none =>
        (s.setBank bk { state := .loading, groups := [], watch := []
                        declGroups := groups.toNat, declWatch := watch.toNat }).flagPart.done

/-- LOAD_BEGIN (R105). -/
def execLoadBegin (tag bank : Byte) (groups : BitVec 16) (watch : Byte) (s : State) :
    Host.Outcome State Fault Refusal :=
  request 4 tag (State.runLoadBegin bank groups watch) s

/-- The written counts of a bank as results (R107, R108). -/
def writtenc (b : Bank) : List Byte := num2c b.groups.length ++ num1c b.watch.length

/-- The group entry a LOAD GROUPS entry writes (R100, 11.2). -/
def writtenGroup (w : GroupWrite) : GroupEntry :=
  { age := w.flags.getLsbD 0, attendant := w.flags.getLsbD 1, exempt := w.flags.getLsbD 2
    tol := w.tol.toNat }

/-- A group entry is written (R107). -/
def Bank.writeGroup (b : Bank) (w : GroupWrite) : Bank :=
  { b with groups := putKey w.code.toNat (writtenGroup w) b.groups }

/-- The whole request is acceptable (R107). -/
def groupsOk (es : List GroupWrite) : Bool :=
  decide (1 ≤ es.length ∧ es.length ≤ 8) &&
    es.all (fun w => decide (w.code.toNat ≤ 1023 ∧ w.tol.toNat ≤ 250))

/-- LOAD GROUPS (R107). -/
def State.runLoadGroups (bank : Byte) (es : List GroupWrite) (s : State) : Executed :=
  match bankArg bank with
  | none => s.refuse .badArgument
  | some bk =>
    if groupsOk es = false then s.refuse .badArgument
    else if (s.tables.bank bk).state ≠ .loading then s.refuse .badState
    else
      let x := es.foldl Bank.writeGroup (s.tables.bank bk)
      { state := s.setBank bk x, outcome := .done, results := writtenc x }

/-- LOAD_GROUPS (R107). -/
def execLoadGroups (tag bank : Byte) (entries : List GroupWrite) (s : State) :
    Host.Outcome State Fault Refusal :=
  request 5 tag (State.runLoadGroups bank entries) s

/-- The tolerance override of a LOAD WATCH entry: bit 3 of its flags says it is present (11.2). -/
def writtenOverride (w : WatchWrite) : Option Nat :=
  if w.flags.getLsbD 3 then some w.tol.toNat else none

/-- The watch entry a LOAD WATCH entry writes (R101, 11.2). -/
def writtenWatch (w : WatchWrite) : WatchEntry :=
  { refer := w.flags.getLsbD 0, age := w.flags.getLsbD 1, exempt := w.flags.getLsbD 2
    tol := writtenOverride w }

/-- The entries are written in order, stopping at the first that finds the list full; whether all were
written (R108). -/
def Bank.writeWatch (b : Bank) : List WatchWrite → Bank × Bool
  | [] => (b, true)
  | w :: ws =>
    if (findKey w.article.toNat b.watch).isNone ∧ Config.maxWatch ≤ b.watch.length then (b, false)
    else Bank.writeWatch { b with watch := putKey w.article.toNat (writtenWatch w) b.watch } ws

/-- The whole request is acceptable (R108). -/
def watchOk (es : List WatchWrite) : Bool :=
  decide (1 ≤ es.length ∧ es.length ≤ 4) && es.all (fun w => (writtenOverride w).all (· ≤ 250))

/-- LOAD WATCH (R108). -/
def State.runLoadWatch (bank : Byte) (es : List WatchWrite) (s : State) : Executed :=
  match bankArg bank with
  | none => s.refuse .badArgument
  | some bk =>
    if watchOk es = false then s.refuse .badArgument
    else if (s.tables.bank bk).state ≠ .loading then s.refuse .badState
    else
      let r := (s.tables.bank bk).writeWatch es
      { state := s.setBank bk r.1, outcome := if r.2 then .done else .full
        results := writtenc r.1 }

/-- LOAD_WATCH (R108). -/
def execLoadWatch (tag bank : Byte) (entries : List WatchWrite) (s : State) :
    Host.Outcome State Fault Refusal :=
  request 6 tag (State.runLoadWatch bank entries) s

/-- Both written counts and both declared counts (R109, log 15). -/
def countsc (b : Bank) : List Byte := writtenc b ++ num2c b.declGroups ++ num1c b.declWatch

/-- LOAD END (R109). -/
def State.runLoadEnd (bank : Byte) (s : State) : Executed :=
  match bankArg bank with
  | none => s.refuse .badArgument
  | some bk =>
    let x := s.tables.bank bk
    if x.state ≠ .loading then s.refuse .badState
    else if x.groups.length = x.declGroups ∧ x.watch.length = x.declWatch then
      (s.setBankState bk .ready).done
    else { state := s.setBankState bk .invalid, outcome := .countMismatch, results := countsc x }

/-- LOAD_END (R109). -/
def execLoadEnd (tag bank : Byte) (s : State) : Host.Outcome State Fault Refusal :=
  request 7 tag (State.runLoadEnd bank) s

/-- LOAD ABORT (R110). -/
def State.runLoadAbort (bank : Byte) (s : State) : Executed :=
  match bankArg bank with
  | none => s.refuse .badArgument
  | some bk =>
    if (s.tables.bank bk).state = .loading then (s.setBankState bk .invalid).done
    else s.refuse .badState

/-- LOAD_ABORT (R110). -/
def execLoadAbort (tag bank : Byte) (s : State) : Host.Outcome State Fault Refusal :=
  request 8 tag (State.runLoadAbort bank) s

/-- COMMIT (R111). -/
def State.runCommit (bank : Byte) (s : State) : Executed :=
  match bankArg bank with
  | none => s.refuse .badArgument
  | some bk =>
    if (s.tables.bank bk).state = .ready then
      let t := match s.tables.current with
        | some old => s.setBankState old .ready
        | none => s
      (t.setBankState bk .current).done
    else s.refuse .badState

/-- COMMIT (R111). -/
def execCommit (tag bank : Byte) (s : State) : Host.Outcome State Fault Refusal :=
  request 9 tag (State.runCommit bank) s

/-! ## The badge list (R88, R113 to R115) -/

/-- A lane's open session is held by a badge. -/
def Floor.heldBy (f : Floor) (n : BadgeNo) (l : LaneIx) : Bool :=
  (f.lane l).session.any (fun se => se.badge == n)

/-- Every open session that `held` picks closes, in ascending lane order (R88). -/
def Floor.closeSessions (p : Params) (held : Floor → LaneIx → Bool) (f : Floor) : Floor :=
  allLanes.foldl (fun f l => if held f l then f.closeSession p l else f) f

/-- Every session held by a badge takes a raised level (R88). -/
def Floor.raiseLevel (n : BadgeNo) (lv : Level) (f : Floor) : Floor :=
  allLanes.foldl (fun f l =>
    if f.heldBy n l then
      f.modLane l (fun x => { x with session := x.session.map (fun se => { se with level := lv }) })
    else f) f

/-- The badge list with an entry written. -/
def State.putBadge (s : State) (n : BadgeNo) (lv : Level) : State :=
  { s with tables := { s.tables with badges := putKey n.toNat lv s.tables.badges } }

/-- BADGE SET (R88, R114). -/
def State.runBadgeSet (badge : BadgeNo) (level : Byte) (s : State) : Executed :=
  match levelArg level with
  | none => s.refuse .badArgument
  | some lv =>
    match s.tables.level badge with
    | some old =>
      if old = lv then s.done
      else if lv.code < old.code then
        ((s.putBadge badge lv).onFloor
          (Floor.closeSessions s.params (fun f l => f.heldBy badge l))).done
      else ((s.putBadge badge lv).onFloor (Floor.raiseLevel badge lv)).done
    | none =>
      if s.tables.badges.length < Config.maxBadges then (s.putBadge badge lv).done
      else s.refuse .full

/-- BADGE_SET (R114). -/
def execBadgeSet (tag : Byte) (badge : BadgeNo) (level : Byte) (s : State) :
    Host.Outcome State Fault Refusal :=
  request 10 tag (State.runBadgeSet badge level) s

/-- BADGE CLEAR (R88, R115): mode 0 names one badge, mode 1 ALL (11.2). -/
def State.runBadgeClear (mode : Byte) (badge : BadgeNo) (s : State) : Executed :=
  match mode.toNat with
  | 0 =>
    match s.tables.level badge with
    | none => s.refuse .notFound
    | some _ =>
      ({ s with tables := { s.tables with
            badges := dropKey badge.toNat s.tables.badges } }.onFloor
        (Floor.closeSessions s.params (fun f l => f.heldBy badge l))).done
  | 1 =>
    ({ s with tables := { s.tables with badges := [] } }.onFloor
      (Floor.closeSessions s.params (fun f l => (f.lane l).session.isSome))).done
  | _ => s.refuse .badArgument

/-- BADGE_CLEAR: BADGE CLEAR with a mode character other than 1 (R115). -/
def execBadgeClear (tag mode : Byte) (badge : BadgeNo) (s : State) :
    Host.Outcome State Fault Refusal :=
  request 11 tag (State.runBadgeClear mode badge) s

/-- BADGE_CLEAR_ALL: BADGE CLEAR of ALL (R115). -/
def execBadgeClearAll (tag : Byte) (badge : BadgeNo) (s : State) :
    Host.Outcome State Fault Refusal :=
  request 11 tag (State.runBadgeClear 1 badge) s

/-! ## The zone table (R116) -/

/-- ZONE SET (R116). -/
def State.runZoneSet (console : Byte) (lanes : LaneSet) (s : State) : Executed :=
  match finArg 4 console with
  | none => s.refuse .badArgument
  | some c =>
    let t := { s with tables := { s.tables with zones := upd s.tables.zones c lanes } }
    (t.onDesk (fun d =>
      { d.checkWaiting t.params t.tables.zones with dispatchDue := true })).done

/-- ZONE_SET (R116). -/
def execZoneSet (tag console : Byte) (lanes : LaneSet) (s : State) :
    Host.Outcome State Fault Refusal :=
  request 12 tag (State.runZoneSet console lanes) s

end Sys2Proof.Machine
end

