-- ==== Sys2Proof/Machine/TimeBase.lean ====
section
/-! DEFINITION. The time base tick (R172 to R174), the LINK_OK filter and link DOWN and UP (R156, R168,
R169), and the call inputs (R136, R137). -/

namespace Sys2Proof.Machine

/-! ## TICK -/

/-- The timers of a lane count a tick (R174). -/
def Lane.tick (x : Lane) : Lane :=
  { x with bagSettle := tickTimer x.bagSettle, inactivity := tickTimer x.inactivity
           presence := tickTimer x.presence, refusalTimer := tickTimer x.refusalTimer }

/-- The timers of a record count a tick (R174). -/
def Record.tick (r : Record) : Record :=
  { r with escal := tickTimer r.escal, offer := tickTimer r.offer, claim := tickTimer r.claim }

/-- A record slot at a tick. -/
def QSlot.tick (k : QSlot) : QSlot := { k with rec? := k.rec?.map Record.tick }

/-- Every timer of the floor counts a tick (R174). -/
def Floor.tick (f : Floor) : Floor :=
  { f with lanes := Vector.ofFn (fun l => (f.lanes[l]).tick)
           desk := { f.desk with slots := Vector.ofFn (fun k => (f.desk.slots[k]).tick) } }

/-- The LINK_OK filter takes a sample: two agreeing samples that differ from the level make a change due;
from unknown to low nothing but the level changes (R156, log 7). -/
def Link.sample (x : Link) (ok : Bool) : Link :=
  let y := { x with prev := some ok }
  if x.prev = some ok ∧ x.level ≠ some ok then
    if x.level = none ∧ ok = false then { y with level := some false }
    else { y with due := some ok }
  else y

/-- The receiver's truncation check counts a tick (R157, 9.3). -/
def Receiver.tick : Receiver → Receiver
  | .hunt => .hunt
  | .message t => .message (t + 1)

/-- TICK (R172): store time advances, every running timer counts, LINK_OK is sampled, and the receiver
counts towards truncation. -/
def execTick (linkOk : Bool) (s : State) : Host.Outcome State Fault Refusal :=
  whenRunning s fun s =>
    { s with
        floor := s.floor.tick
        lines := Vector.ofFn (fun n => { s.lines[n] with settle := tickTimer (s.lines[n]).settle })
        link := { s.link.sample linkOk with rx := s.link.rx.tick }
        storeTime := s.storeTime + 1
        prescaler := 0 }

/-! ## Link DOWN and UP -/

/-- A message cut short: a notice's flag is set again, and a lane event stays at the head of its queue,
or is discarded where its channel is DISABLED (step 1 of R168, R167). -/
def State.cutShort (s : State) (m : TxMessage) : State :=
  match m.what with
  | .response | .snapshot _ => s
  | .partNotice => s.flagPart
  | .lineNotice l => s.flagLine l
  | .laneNotice l => s.onFloor (fun f => { f with laneFlags := addLane f.laneFlags l })
  | .laneEvent c =>
    match s.floor.chans[c].state, s.floor.chans[c].queue with
    | .disabled, ev :: rest =>
      s.onFloor (fun f => (f.modChan c (fun ch =>
        { ch with queue := rest, discarded := bump ch.discarded })).giveBack ev.frame.buf)
    | _, _ => s

/-- A traffic channel at link DOWN (step 4 of R168). -/
def Channel.linkLost (c : Channel) : Channel :=
  match c.state with
  | .disabled => c
  | .pending | .opened => { c with state := .pending, credit := 0, pass := 0 }

/-- The effects of link DOWN, in the order of R168. -/
def State.goDown (s : State) : State :=
  let s1 := match s.link.tx with
    | some m => s.cutShort m
    | none => s
  let opened := allChans.any (fun c => s1.floor.chans[c].state == .opened)
  let s2 := { s1 with
    link := { s1.link with tx := none, rx := .hunt, level := some false, due := none }
    mgmt := { s1.mgmt with slots := [] }
    floor := { s1.floor with chans := Vector.ofFn (fun c => (s1.floor.chans[c]).linkLost) } }
  let s3 := if opened then s2.flagPart else s2
  s3.onDesk (fun d => d.linkLost s.params)

/-- LINK_DOWN (R168): taken where the filter has made it due. A pending PART RESET takes effect after its
effects (R191). -/
def execLinkDown (s : State) : Host.Outcome State Fault Refusal :=
  whenRunning s fun s =>
    if s.link.due = some false then
      let t := s.goDown
      if t.mgmt.resetPending then t.partReset .request else t.finish
    else s

/-- LINK_UP (R169): taken where the filter has made it due. -/
def execLinkUp (s : State) : Host.Outcome State Fault Refusal :=
  whenRunning s fun s =>
    if s.link.due = some true then
      { s with link := { s.link with level := some true, due := none, rx := .hunt } }.arbiter
    else s

/-! ## Call inputs -/

/-- The filter of a call input takes a sample (R136): the input afterwards, and the edge its filtered
level made, if any. -/
def CallInput.sample (c : CallInput) (v : Bool) : CallInput × Option Edge :=
  let d := { c with prev := some v }
  if c.prev = some v ∧ c.level ≠ some v then
    ({ d with level := some v },
      match c.level with
      | none => none
      | some _ => some (if v then .rise else .fall))
  else (d, none)

/-- An edge that matches the edge setting (R137). -/
def Edge.matches (setting e : Edge) : Bool := setting == .both || setting == e

/-- A lane's call input is sampled; a press with the pending flag clear sets it and raises HELP (R136,
R137). -/
def Floor.sampleCall (e : Env) (levels : LaneSet) (f : Floor) (l : LaneIx) : Floor :=
  let x := f.lane l
  let r := x.call.sample (hasLane levels l)
  let press := match r.2 with
    | some ed => x.call.enabled && x.call.edge.matches ed && !x.call.pending
    | none => false
  if press then
    (f.modLane l (fun x => { x with call := { r.1 with pending := true } })).raise e l .help none
      (some .button)
  else f.modLane l (fun x => { x with call := r.1 })

/-- CALL_INPUT_SAMPLE (R136): the 24 inputs are sampled, in lane order (log 8). -/
def execCallInputSample (levels : LaneSet) (s : State) : Host.Outcome State Fault Refusal :=
  whenRunning s fun s =>
    (s.onFloor (fun f => allLanes.foldl (Floor.sampleCall s.env levels) f)).finish

end Sys2Proof.Machine
end

