-- ==== Sys2Proof/Machine/Transmit.lean ====
section
/-! DEFINITION. The completion of messages: the transmitter becomes idle (R158, R167, R181, R191). -/

namespace Sys2Proof.Machine

/-- The transmitter becomes idle (R158). -/
def State.idleTx (s : State) : State := { s with link := { s.link with tx := none } }

/-- What the transmitter is sending (R158). -/
def State.sending (s : State) : Option TxWhat :=
  match s.link.tx with
  | some m => some m.what
  | none => none

/-- MESSAGE_COMPLETE (R158): a snapshot or notice has left the part. -/
def execMessageComplete (s : State) : Host.Outcome State Fault Refusal :=
  whenRunning s fun s =>
    match s.sending with
    | some (.snapshot _) | some .partNotice | some (.lineNotice _) | some (.laneNotice _) =>
      s.idleTx.finish
    | some .response | some (.laneEvent _) | none => s

/-- A response has left the part: its slot is free; a pending PART RESET takes effect when its own
response, the last, has left (R181, R191). -/
def State.responseSent (s : State) : State :=
  let slots := s.mgmt.slots.drop 1
  let t := { s.idleTx with mgmt := { s.mgmt with slots := slots } }
  if s.mgmt.resetPending ∧ slots = [] then t.partReset .request else t.finish

/-- RESPONSE_COMPLETE (R181). -/
def execResponseComplete (s : State) : Host.Outcome State Fault Refusal :=
  whenRunning s fun s =>
    match s.sending with
    | some .response => s.responseSent
    | some (.snapshot _) | some .partNotice | some (.lineNotice _) | some (.laneNotice _)
    | some (.laneEvent _) | none => s

/-- A lane event leaves its queue: its buffer returns, it is counted, and deferred passes run (R43,
R167). -/
def State.eventSent (s : State) (c : ChanIx) : State :=
  match s.floor.chans[c].queue with
  | [] => s.idleTx.finish
  | ev :: rest =>
    (s.idleTx.onFloor (fun f =>
      ((f.modChan c (fun ch => { ch with queue := rest, sent := bump ch.sent })).giveBack
        ev.frame.buf).sweep s.env)).finish

/-- LANE_EVENT_COMPLETE (R167). -/
def execLaneEventComplete (s : State) : Host.Outcome State Fault Refusal :=
  whenRunning s fun s =>
    match s.sending with
    | some (.laneEvent c) => s.eventSent c
    | some .response | some (.snapshot _) | some .partNotice | some (.lineNotice _)
    | some (.laneNotice _) | none => s

end Sys2Proof.Machine
end

