-- ==== Sys2Proof/Machine/Dispatch.lean ====
section
/-! DEFINITION. Each command's meaning. -/

namespace Sys2Proof.Machine

def exec (i : Instr) (s : State) : Host.Outcome State Fault Refusal :=
  match i with
  | .powerOn resetLow => Sys2Proof.Machine.execPowerOn resetLow s
  | .resetPinLow => Sys2Proof.Machine.execResetPinLow s
  | .resetPinHigh => Sys2Proof.Machine.execResetPinHigh s
  | .tick linkOk => Sys2Proof.Machine.execTick linkOk s
  | .linkDown => Sys2Proof.Machine.execLinkDown s
  | .linkUp => Sys2Proof.Machine.execLinkUp s
  | .callInputSample levels => Sys2Proof.Machine.execCallInputSample levels s
  | .skippedCharacter => Sys2Proof.Machine.execSkippedCharacter s
  | .badLength => Sys2Proof.Machine.execBadLength s
  | .truncated => Sys2Proof.Machine.execTruncated s
  | .badCheck => Sys2Proof.Machine.execBadCheck s
  | .wrongChannel => Sys2Proof.Machine.execWrongChannel s
  | .lostRequest => Sys2Proof.Machine.execLostRequest s
  | .unknownRequest tag kind content => Sys2Proof.Machine.execUnknownRequest tag kind content s
  | .credit tag channel count => Sys2Proof.Machine.execCredit tag channel count s
  | .channelSetEnable tag channel enable => Sys2Proof.Machine.execChannelSetEnable tag channel enable s
  | .channelSetDisable tag channel => Sys2Proof.Machine.execChannelSetDisable tag channel s
  | .mapSet tag kind channel => Sys2Proof.Machine.execMapSet tag kind channel s
  | .loadBegin tag bank groups watch => Sys2Proof.Machine.execLoadBegin tag bank groups watch s
  | .loadGroups tag bank entries => Sys2Proof.Machine.execLoadGroups tag bank entries s
  | .loadWatch tag bank entries => Sys2Proof.Machine.execLoadWatch tag bank entries s
  | .loadEnd tag bank => Sys2Proof.Machine.execLoadEnd tag bank s
  | .loadAbort tag bank => Sys2Proof.Machine.execLoadAbort tag bank s
  | .commit tag bank => Sys2Proof.Machine.execCommit tag bank s
  | .badgeSet tag badge level => Sys2Proof.Machine.execBadgeSet tag badge level s
  | .badgeClear tag mode badge => Sys2Proof.Machine.execBadgeClear tag mode badge s
  | .badgeClearAll tag badge => Sys2Proof.Machine.execBadgeClearAll tag badge s
  | .zoneSet tag console lanes => Sys2Proof.Machine.execZoneSet tag console lanes s
  | .laneOpen tag lane => Sys2Proof.Machine.execLaneOpen tag lane s
  | .laneClose tag lane force => Sys2Proof.Machine.execLaneClose tag lane force s
  | .laneCloseForce tag lane => Sys2Proof.Machine.execLaneCloseForce tag lane s
  | .laneReset tag lane => Sys2Proof.Machine.execLaneReset tag lane s
  | .inputSet tag lane enable edge => Sys2Proof.Machine.execInputSet tag lane enable edge s
  | .lineQuiet tag line => Sys2Proof.Machine.execLineQuiet tag line s
  | .lineWake tag line => Sys2Proof.Machine.execLineWake tag line s
  | .consoleOn tag console => Sys2Proof.Machine.execConsoleOn tag console s
  | .consoleOff tag console => Sys2Proof.Machine.execConsoleOff tag console s
  | .claim tag console slot issue => Sys2Proof.Machine.execClaim tag console slot issue s
  | .decline tag console slot issue => Sys2Proof.Machine.execDecline tag console slot issue s
  | .release tag console slot issue => Sys2Proof.Machine.execRelease tag console slot issue s
  | .resolveClear tag console slot issue action => Sys2Proof.Machine.execResolveClear tag console slot issue action s
  | .resolveRefer tag console slot issue => Sys2Proof.Machine.execResolveRefer tag console slot issue s
  | .readLane tag lane page => Sys2Proof.Machine.execReadLane tag lane page s
  | .readQueue tag list start => Sys2Proof.Machine.execReadQueue tag list start s
  | .readStatus tag page => Sys2Proof.Machine.execReadStatus tag page s
  | .readCounters tag group clear => Sys2Proof.Machine.execReadCounters tag group clear s
  | .setParam tag param value => Sys2Proof.Machine.execSetParam tag param value s
  | .setTime tag value => Sys2Proof.Machine.execSetTime tag value s
  | .partReset tag => Sys2Proof.Machine.execPartReset tag s
  | .messageComplete => Sys2Proof.Machine.execMessageComplete s
  | .responseComplete => Sys2Proof.Machine.execResponseComplete s
  | .laneEventComplete => Sys2Proof.Machine.execLaneEventComplete s
  | .bagSettleExpiry lane => Sys2Proof.Machine.execBagSettleExpiry lane s
  | .inactivityExpiry lane => Sys2Proof.Machine.execInactivityExpiry lane s
  | .presenceExpiry lane => Sys2Proof.Machine.execPresenceExpiry lane s
  | .refusalMessageExpiry lane => Sys2Proof.Machine.execRefusalMessageExpiry lane s
  | .escalationExpiry slot => Sys2Proof.Machine.execEscalationExpiry slot s
  | .offerExpiry slot => Sys2Proof.Machine.execOfferExpiry slot s
  | .claimExpiry slot => Sys2Proof.Machine.execClaimExpiry slot s
  | .wakeSettleExpiry line => Sys2Proof.Machine.execWakeSettleExpiry line s
  | .pollEnd line => Sys2Proof.Machine.execPollEnd line s
  | .miss line => Sys2Proof.Machine.execMiss line s
  | .damagedAnswer line => Sys2Proof.Machine.execDamagedAnswer line s
  | .answerTruncated line => Sys2Proof.Machine.execAnswerTruncated line s
  | .goodAnswer line chars => Sys2Proof.Machine.execGoodAnswer line chars s
  | .lineBreak line => Sys2Proof.Machine.execLineBreak line s
  | .stray line char => Sys2Proof.Machine.execStray line char s
  | .idleRoundEnd line => Sys2Proof.Machine.execIdleRoundEnd line s
  | .startCharacter => Sys2Proof.Machine.execStartCharacter s
  | .answerStart line => Sys2Proof.Machine.execAnswerStart line s

end Sys2Proof.Machine
end

