-- ==== Sys2Proof/WellFormed.lean ====
section
/-! DEFINITION. Which command terms a sender can send: what the operand types do not already say. -/

namespace Sys2Proof

/-- Well-formed commands. The conditions keep the pairs of rows of one request apart by their code
character (log 11), a request within the 120 content characters of a message (R157), an unknown
request outside the catalogue (R180), and an answer within the longest answer, 44 characters (R126). -/
def Instr.wellFormed : Instr → Bool
  | .channelSetEnable _ _ enable => enable != 0
  | .badgeClear _ mode _ => mode != 1
  | .laneClose _ _ force => force != 1
  | .resolveClear _ _ _ _ action => action != 1
  | .loadGroups _ _ es => es.length ≤ 29
  | .loadWatch _ _ es => es.length ≤ 14
  | .unknownRequest tag kind content =>
    content.length ≤ 120 && (catalogueRequest kind.toNat tag content).isNone
  | .goodAnswer _ chars => chars.length ≤ 44
  | .powerOn _ | .resetPinLow | .resetPinHigh | .tick _ | .linkDown | .linkUp
  | .callInputSample _ | .skippedCharacter | .badLength | .truncated | .badCheck | .wrongChannel
  | .lostRequest | .credit _ _ _ | .channelSetDisable _ _ | .mapSet _ _ _ | .loadBegin _ _ _ _
  | .loadEnd _ _ | .loadAbort _ _ | .commit _ _ | .badgeSet _ _ _ | .badgeClearAll _ _
  | .zoneSet _ _ _ | .laneOpen _ _ | .laneCloseForce _ _ | .laneReset _ _ | .inputSet _ _ _ _
  | .lineQuiet _ _ | .lineWake _ _ | .consoleOn _ _ | .consoleOff _ _ | .claim _ _ _ _
  | .decline _ _ _ _ | .release _ _ _ _ | .resolveRefer _ _ _ _ | .readLane _ _ _
  | .readQueue _ _ _ | .readStatus _ _ | .readCounters _ _ _ | .setParam _ _ _ | .setTime _ _
  | .partReset _ | .messageComplete | .responseComplete | .laneEventComplete
  | .bagSettleExpiry _ | .inactivityExpiry _ | .presenceExpiry _ | .refusalMessageExpiry _
  | .escalationExpiry _ | .offerExpiry _ | .claimExpiry _ | .wakeSettleExpiry _ | .pollEnd _
  | .miss _ | .damagedAnswer _ | .answerTruncated _ | .lineBreak _ | .stray _ _
  | .idleRoundEnd _ | .startCharacter | .answerStart _ => true

end Sys2Proof
end

