-- ==== Sys2Proof/Safety.lean ====
section
/-! DEFINITION. Words the statements are made of: when the part takes requests, what an answered request
leaves, and the conditions on a state that every step keeps. -/

namespace Sys2Proof

/-- Commands of the store link receiver that are no requests (R157, R179). -/
def Instr.isFinding : Instr → Bool
  | .startCharacter | .skippedCharacter | .badLength | .truncated | .badCheck | .wrongChannel
  | .lostRequest => true
  | _ => false

end Sys2Proof

namespace Sys2Proof.Machine

/-- The part takes a request and executes it: it is not held in reset, the link is UP, no PART RESET is
pending and a response slot is free (R157, R179, R191). -/
abbrev State.takesRequests (s : State) : Prop :=
  s.held = none ∧ s.linkUp = true ∧ s.mgmt.resetPending = false ∧
    s.mgmt.slots.length < Config.maxSlots

/-- The state after a request that was executed: `u` is what its rule made of the state, the receiver
hunts again, the response stands behind the earlier ones, and the event ends (R157, R180, R181). -/
def State.answer (u : State) (kind : BitVec 6) (tag : Byte) (a : Answer) (results : List Byte := []) :
    State :=
  State.finish
    { u with
        link := { u.link with rx := .hunt }
        mgmt := { u.mgmt with
          slots := u.mgmt.slots ++
            [{ tag := tag, kind := kind, outcome := a, results := results }] } }

/-- The number that stands for a bank in a request (R194). -/
def BankId.num : BankId → Nat
  | .a => 0
  | .b => 1

/-! ## Conditions that every step keeps -/

/-- At most one bank is CURRENT and at most one LOADING (R103, R105, R111); the lists of a bank and the
badge list keep their rising keys and their lengths (R100, R101, R113, log 13). -/
def Tables.legal (t : Tables) : Prop :=
  ¬(t.bankA.state = .current ∧ t.bankB.state = .current) ∧
  ¬(t.bankA.state = .loading ∧ t.bankB.state = .loading) ∧
  (∀ bk, risingKeys (t.bank bk).groups = true ∧ risingKeys (t.bank bk).watch = true ∧
    (t.bank bk).watch.length ≤ Config.maxWatch ∧
    ∀ p ∈ (t.bank bk).groups, p.1 ≤ 1023) ∧
  risingKeys t.badges = true ∧ t.badges.length ≤ Config.maxBadges

/-- Credit lies between 0 and 63, the pass count between 0 and 8, and both are 0 unless the channel is
OPEN (R160, R161, R166, R168); the queue holds at most 24 lane events (R164). -/
def Channel.legal (c : Channel) : Prop :=
  c.credit ≤ Config.maxCredit ∧ c.pass ≤ Config.maxPass ∧ c.queue.length ≤ Config.maxQueue ∧
    (c.state ≠ .opened → c.credit = 0 ∧ c.pass = 0)

/-- A lane outside a transaction holds no pinned bank, no stack and no transaction timer (R1, R11, R25,
R26); a CLOSED lane defers nothing (R44); the stack, the deferred list and the totals keep their bounds
(R2, R3, R40); a session and its timer, and a refusal message and its timer, come and go together (R47,
R87); no inactivity timer runs beside a session (R26). -/
def Lane.legal (x : Lane) : Prop :=
  (x.state.inTxn = false →
    x.pinned = none ∧ x.stack = [] ∧ x.bagSettle = none ∧ x.inactivity = none) ∧
  (x.state = .closed → x.deferred = []) ∧
  x.stack.length ≤ Config.maxStack ∧ x.deferred.length ≤ Config.maxDeferred ∧
  x.totals.itemCount ≤ Config.maxItems ∧ x.totals.value ≤ Config.maxValue ∧
  x.session.isSome = x.presence.isSome ∧ x.refusal.isSome = x.refusalTimer.isSome ∧
  (x.session.isSome = true → x.inactivity = none)

/-- Every place a frame buffer can be in: the free list, the answer slots, the deferred lists and the
traffic channel queues (R152). -/
def State.places (s : State) : List BufId :=
  s.floor.free ++ allLines.filterMap (fun n => (s.line n).slot) ++
    allLanes.flatMap (fun l => (s.floor.lane l).deferred.map (·.buf)) ++
    allChans.flatMap (fun c => s.floor.chans[c].queue.map (·.frame.buf))

/-- Each of the 64 frame buffers is in exactly one place (R152). -/
def State.buffersInPlace (s : State) : Prop := ∀ b : BufId, s.places.count b = 1

end Sys2Proof.Machine
end

