-- ==== Sys2Proof/Certificates/Slice0/Obligations.lean ====
section
/-! DEFINITION. The statements for the provers. A statement about a command gives the next state as an
update of the present one, written out, under `State.answer` (the response and the end of the event) where
the command is a request; what the end of an event may change is `Obligations.EndOfEventFrame`. -/

open Sys2Proof Sys2Proof.Machine

/-! ## The queue of commands -/

/-- A step takes the command at the front of the queue and executes it on the state with the rest of the
queue; on an empty queue the part idles, which is the model's choice (log 1). -/
def Obligations.StepRunsFrontCommand : Prop :=
  (∀ (c : Instr) (rest : List Instr) (s : State), s.pending = c :: rest →
    step s = exec c { s with pending := rest }) ∧
  ∀ s : State, s.pending = [] → step s = .next s

/-- Every command, in every state, gives a next state and leaves the queue of commands alone. That no command
stops the part is the model's reading (log 25, DEDUCED), and that the commands wait in a queue of which
exec takes none is the model's form (log 1, DESIGN CHOICE). -/
def Obligations.EveryCommandCompletes : Prop :=
  ∀ (c : Instr) (s : State), ∃ t, exec c s = .next t ∧ t.pending = s.pending

/-! ## Reset -/

/-- The values after power-on of the "After reset" tables, as `State.reset` has them, with the parameter
defaults of R187 and R29 and the rotation pointers of R192; no line has a turn, since the first turns
begin inside POWER_ON (log 5). That the LINK_OK filter has no last sample is the model's choice (log 24). -/
def Obligations.ResetValues : Prop :=
  let s := State.reset
  (∀ l : LaneIx,
    let x := s.floor.lane l
    x.state = .closed ∧ x.txn = 0 ∧ x.pinned = none ∧ x.totals.itemCount = 0 ∧ x.totals.value = 0 ∧
    x.totals.expected = 0 ∧ x.totals.tolerance = 0 ∧ x.totals.bag = none ∧ x.totals.ageCount = 0 ∧
    x.totals.ageApproved = false ∧ x.totals.highRaised = false ∧ x.stack = [] ∧ x.reasons = [] ∧
    x.help = {} ∧ x.deferred = [] ∧ x.session = none ∧ x.refusal = none ∧ x.refusalMark = false ∧
    x.word = { lamp := .off, pause := false, message := .laneClosed, gen := 0 } ∧
    x.echo = none ∧ x.lastDirect = none ∧
    x.bagSettle = none ∧ x.inactivity = none ∧ x.presence = none ∧ x.refusalTimer = none ∧
    x.call.enabled = false ∧ x.call.edge = .fall ∧ x.call.prev = none ∧ x.call.level = none ∧
    x.call.pending = false ∧
    x.drop = { link := .online, misses := 0, quality := 0, trouble := false, lastSeq := none } ∧
    x.counters = { outOfPlace := 0, freed := 0, duplicates := 0, gaps := 0, malformed := 0
                   refused := 0 }) ∧
  (∀ k : SlotIx, s.floor.desk.recAt k = none ∧ s.floor.desk.slots[k].issue = 0) ∧
  (∀ c : ConsoleIx, (s.floor.desk.console c).state = .absent ∧
    (s.floor.desk.console c).pending = false ∧ (s.floor.desk.console c).cause = .noneYet ∧
    (s.floor.desk.console c).saved = none ∧ s.tables.zones[c] = BitVec.allOnes 24) ∧
  s.floor.desk.freeOrder = [] ∧
  (∀ bk, (s.tables.bank bk).state = .empty ∧ (s.tables.bank bk).groups = [] ∧
    (s.tables.bank bk).watch = [] ∧ (s.tables.bank bk).declGroups = 0 ∧
    (s.tables.bank bk).declWatch = 0) ∧
  s.tables.badges = [] ∧
  (∀ n : LineIx,
    (s.line n).state = .active ∧ (s.line n).quietPending = false ∧ (s.line n).pos = 0 ∧
    (s.line n).round = 0 ∧ (s.line n).slot = none ∧ (s.line n).attention = .inactive ∧
    (s.line n).settle = none ∧ (s.line n).turn = none ∧
    (s.line n).counters = { misses := 0, damaged := 0, noisy := 0, breaks := 0, ignoredBreaks := 0
                            strays := 0, standbyPolls := 0, standbyFrames := 0 }) ∧
  s.floor.free.length = 64 ∧ s.floor.releasePtr = 0 ∧
  (∀ c : ChanIx, s.floor.chans[c].state = .disabled ∧ s.floor.chans[c].credit = 0 ∧
    s.floor.chans[c].queue = [] ∧ s.floor.chans[c].pass = 0) ∧
  s.map = #v[some 0, some 0, none, some 2, some 2, some 1, some 1, some 1, some 1, some 2, some 2] ∧
  s.link.prev = none ∧ s.link.level = none ∧ s.link.rx = .hunt ∧ s.link.tx = none ∧
  s.mgmt.slots = [] ∧ s.mgmt.cause = .power ∧ s.mgmt.conflictSeen = false ∧
  s.mgmt.lostSeen = false ∧ s.mgmt.resetPending = false ∧
  s.params = { baseTolerance := 20, toleranceCap := 2000, highLimit := 30000, bagSettle := 80
               inactivity := 1200, presence := 900, offer := 100, claim := 1800
               escal0 := 600, escal1 := 450, escal2 := 300
               base := #v[1, 1, 1, 1, 2, 1, 2, 3, 0, 2], mask := 7 } ∧
  s.notices = { part := false, line := 0, consolePtr := 3, linePtr := 23, lanePtr := 23 } ∧
  s.floor.laneFlags = 0 ∧
  partCounters s = List.replicate 20 0 ∧ s.storeTime = 0 ∧ s.prescaler = 0

/-- POWER_ON sets the reset values and begins the first turn of every line, for drop 0 with a buffer, a
DIRECT of the reset directive word and a POLL that acknowledges none (R123 to R125, R138); with the RESET
pin low it holds the part, and the release records POWER. RESET_PIN_LOW holds the part with its drivers off
and its transmitter idle; while it is held no other command changes anything; RESET_PIN_HIGH lets the part
reset take effect (R191). The model's choices: the count of free values drawn and the queue of commands are
kept (logs 14 and 1), the four lines take their first turns in line order and the free list is in buffer
order (logs 22 and 24), each first turn marks the round as served (log 24), and the pin changes nothing
where it is already low or high (log 21). -/
def Obligations.PowerOnAndResetPin : Prop :=
  (∀ s : State, ∃ t, exec (.powerOn false) s = .next t ∧
    t = { State.reset with floor := t.floor, lines := t.lines, freeCount := s.freeCount,
                           pending := s.pending } ∧
    t.floor = { State.reset.floor with lanes := t.floor.lanes, free := (List.finRange 64).drop 4 } ∧
    (∀ l : LaneIx, t.floor.lane l =
      { State.reset.floor.lane l with lastDirect := if l.1 % 6 = 0 then some 0 else none }) ∧
    (∀ n : LineIx, t.line n =
      { State.reset.line n with
          pos := 1, roundServed := true, slot := some ⟨n.1, by omega⟩
          turn := some { drop := 0, phase := .sending, standby := false
                         direct := directChars 0 { lamp := .off, pause := false
                                                   message := .laneClosed, gen := 0 }
                         poll := pollChars 0 none false } })) ∧
  (∀ s : State, exec (.powerOn true) s =
    .next { State.reset with held := some .power, freeCount := s.freeCount, pending := s.pending }) ∧
  (∀ s : State, s.held = none → ∃ t, exec .resetPinLow s = .next t ∧
    t = { s with held := some .pin, link := { s.link with tx := none, rx := .hunt }
                 mgmt := { s.mgmt with resetPending := false }, lines := t.lines } ∧
    ∀ n, t.line n = { s.line n with turn := none }) ∧
  (∀ s : State, ∀ cause, s.held = some cause →
    exec .resetPinHigh s = .next (s.partReset cause)) ∧
  (∀ s : State, s.held = none → exec .resetPinHigh s = .next s) ∧
  ∀ (c : Instr) (s : State), s.held.isSome = true → (∀ low, c ≠ .powerOn low) → c ≠ .resetPinHigh →
    exec c s = .next s

/-- What a part reset sets and what it keeps (R28, R49, R80, R99, R117, R138, R155, R171, R178, R192). Each
line has its power-on values and has begun its first turn, for drop 0, as after POWER_ON (R123 to R125,
R138). The model's choices: the count of free values drawn and the queue of commands are kept (logs 14 and
1), a change of LINK_OK that is due and not taken is kept with the filter (log 7), the free list is in
buffer order and the four lines take their first turns in line order (logs 24 and 22), and each first turn
marks the round as served (log 24). -/
def Obligations.PartResetValues : Prop :=
  ∀ (s : State) (cause : ResetCause),
    let t := s.partReset cause
    (∀ bk, t.tables.bank bk =
      { s.tables.bank bk with
          state := if (s.tables.bank bk).state = .loading then .invalid
                   else if (s.tables.bank bk).state = .current then .ready
                   else (s.tables.bank bk).state }) ∧
    t.tables.badges = s.tables.badges ∧ t.tables.zones = s.tables.zones ∧
    t.link = { State.reset.link with prev := s.link.prev, level := s.link.level, due := s.link.due } ∧
    t.mgmt = { State.reset.mgmt with cause := cause, conflictSeen := s.mgmt.conflictSeen
                                     lostSeen := s.mgmt.lostSeen } ∧
    t.notices = State.reset.notices ∧ t.params = State.reset.params ∧ t.map = State.reset.map ∧
    t.poolEmpty = 0 ∧ t.storeTime = 0 ∧ t.prescaler = 0 ∧ t.held = none ∧
    t.freeCount = s.freeCount ∧ t.pending = s.pending ∧
    t.floor.desk = State.reset.floor.desk ∧ t.floor.chans = State.reset.floor.chans ∧
    t.floor.presence = State.reset.floor.presence ∧ t.floor.laneFlags = 0 ∧
    t.floor.releasePtr = 0 ∧ t.floor.free = (List.finRange 64).drop 4 ∧
    (∀ l : LaneIx, t.floor.lane l =
      { State.reset.floor.lane l with lastDirect := if l.1 % 6 = 0 then some 0 else none }) ∧
    ∀ n : LineIx, t.line n =
      { State.reset.line n with
          pos := 1, roundServed := true, slot := some ⟨n.1, by omega⟩
          turn := some { drop := 0, phase := .sending, standby := false
                         direct := directChars 0 { lamp := .off, pause := false
                                                   message := .laneClosed, gen := 0 }
                         poll := pollChars 0 none false } }

/-- A pending PART RESET takes effect when its response, the last one reserved, has left the part, and at
a link DOWN after the effects of the DOWN (R191). While earlier responses are left it does not. -/
def Obligations.PartResetTakesEffect : Prop :=
  (∀ s : State, s.held = none → s.mgmt.resetPending = true → s.sending = some .response →
    (s.mgmt.slots.length ≤ 1 →
      exec .responseComplete s =
        .next (State.partReset { s with link := { s.link with tx := none }
                                        mgmt := { s.mgmt with slots := [] } } .request)) ∧
    (1 < s.mgmt.slots.length → ∃ t, exec .responseComplete s = .next t ∧
      t.mgmt = { s.mgmt with slots := s.mgmt.slots.drop 1 })) ∧
  ∀ s : State, s.held = none → s.mgmt.resetPending = true → s.link.due = some false →
    exec .linkDown s = .next (s.goDown.partReset .request)

/-! ## The time base, the link and the call inputs -/

/-- On a tick store time advances by 1, every running timer counts, a message partly received ages (R172,
R174, R157), and LINK_OK is sampled: a level must agree on two consecutive ticks and differ from the
filtered level to count, and then a change to it is due, which LINK_DOWN or LINK_UP takes; from unknown to
low nothing but the level changes (R156, log 7). Nothing else changes; the prescaler is at the start of its
count (log 23). That a timer already at 0 stays there, and that its expiry is a command of its own, is the
model's reading (log 3, DEDUCED; R174 knows counts of 1 and more). -/
def Obligations.TickCounts : Prop :=
  ∀ (s : State) (ok : Bool), s.held = none → ∃ t, exec (.tick ok) s = .next t ∧
    t = { s with floor := t.floor, lines := t.lines, link := t.link
                 storeTime := s.storeTime + 1, prescaler := 0 } ∧
    t.floor = { s.floor with lanes := t.floor.lanes
                             desk := { s.floor.desk with slots := t.floor.desk.slots } } ∧
    (∀ l : LaneIx, t.floor.lane l =
      { s.floor.lane l with
          bagSettle := (s.floor.lane l).bagSettle.map (· - 1)
          inactivity := (s.floor.lane l).inactivity.map (· - 1)
          presence := (s.floor.lane l).presence.map (· - 1)
          refusalTimer := (s.floor.lane l).refusalTimer.map (· - 1) }) ∧
    (∀ k : SlotIx, t.floor.desk.slots[k].issue = s.floor.desk.slots[k].issue ∧
      t.floor.desk.recAt k = (s.floor.desk.recAt k).map fun r =>
        { r with escal := r.escal.map (· - 1), offer := r.offer.map (· - 1)
                 claim := r.claim.map (· - 1) }) ∧
    (∀ n : LineIx, t.line n = { s.line n with settle := (s.line n).settle.map (· - 1) }) ∧
    t.link = { s.link with
                 prev := some ok, level := t.link.level, due := t.link.due
                 rx := match s.link.rx with
                   | .hunt => .hunt
                   | .message n => .message (n + 1) } ∧
    (s.link.prev ≠ some ok → t.link.level = s.link.level ∧ t.link.due = s.link.due) ∧
    (s.link.level = some ok → t.link.level = s.link.level ∧ t.link.due = s.link.due) ∧
    (s.link.prev = some ok → s.link.level = some (!ok) →
      t.link.level = s.link.level ∧ t.link.due = some ok) ∧
    (s.link.prev = some ok → s.link.level = none → ok = true →
      t.link.level = none ∧ t.link.due = some true) ∧
    (s.link.prev = some ok → s.link.level = none → ok = false →
      t.link.level = some false ∧ t.link.due = s.link.due)

/-- LINK_UP and LINK_DOWN act where the filter has made them due: UP lets the receiver hunt and the
arbiter choose, DOWN has its effects and ends its event; where they are not due nothing changes (R156,
R168, R169, log 7). -/
def Obligations.LinkChangesTaken : Prop :=
  (∀ s : State, s.held = none → s.link.due = some true →
    exec .linkUp s =
      .next (State.arbiter
        { s with link := { s.link with level := some true, due := none, rx := .hunt } })) ∧
  (∀ s : State, s.held = none → s.link.due ≠ some true → exec .linkUp s = .next s) ∧
  (∀ s : State, s.held = none → s.link.due = some false → s.mgmt.resetPending = false →
    exec .linkDown s = .next s.goDown.finish) ∧
  ∀ s : State, s.held = none → s.link.due ≠ some false → exec .linkDown s = .next s

/-- The effects of link DOWN (R168, R78): transmitter, receiver, responses, channels, consoles, records
and notice flags. Everything else stays: lanes, lines, tables, parameters, map, store time, the slots'
issues, every counter but that of a discarded event, the release pointer, and the free list where no event
of a DISABLED channel is cut short (R155, R167, R192). That the change which was due is taken with it is the
model's form (log 7), and that the event in transmission is the head of its channel's queue is log 28. -/
def Obligations.LinkDownEffects : Prop :=
  ∀ s : State,
    let t := s.goDown
    let cut := s.sending
    let d := s.floor.desk
    t = { s with floor := t.floor, link := t.link, mgmt := t.mgmt, notices := t.notices } ∧
    t.floor = { s.floor with desk := t.floor.desk, chans := t.floor.chans, free := t.floor.free
                             laneFlags := t.floor.laneFlags } ∧
    t.floor.desk = { d with slots := t.floor.desk.slots, consoles := t.floor.desk.consoles
                            freeOrder := [], dispatchDue := t.floor.desk.dispatchDue } ∧
    (∀ k : SlotIx, t.floor.desk.slots[k].issue = d.slots[k].issue) ∧
    t.link = { s.link with tx := none, rx := .hunt, level := some false, due := none } ∧
    t.mgmt = { s.mgmt with slots := [] } ∧
    (∀ c : ChanIx, s.floor.chans[c].state ≠ .disabled →
      t.floor.chans[c] = { s.floor.chans[c] with state := .pending, credit := 0, pass := 0 }) ∧
    (∀ c : ChanIx, s.floor.chans[c].state = .disabled →
      (cut = some (.laneEvent c) → s.floor.chans[c].queue = []) →
      t.floor.chans[c] = s.floor.chans[c]) ∧
    ((∀ c : ChanIx, s.floor.chans[c].state = .disabled → cut = some (.laneEvent c) →
      s.floor.chans[c].queue = []) → t.floor.free = s.floor.free) ∧
    (∀ c : ChanIx, ∀ ev rest, s.floor.chans[c].state = .disabled → cut = some (.laneEvent c) →
      s.floor.chans[c].queue = ev :: rest →
      t.floor.chans[c] = { s.floor.chans[c] with
        queue := rest, discarded := min (s.floor.chans[c].discarded + 1) 65535 } ∧
      t.floor.free = s.floor.free ++ [ev.frame.buf]) ∧
    (∀ c : ConsoleIx, t.floor.desk.console c =
      { s.floor.desk.console c with state := .absent, pending := false, saved := none }) ∧
    (∀ k : SlotIx, t.floor.desk.recAt k = (s.floor.desk.recAt k).map fun r =>
      match r.state with
      | .waiting => r
      | .offered _ _ => { r with state := .waiting, offer := none }
      | .claimed _ =>
        { r with state := .waiting, claim := none, offer := none
                 escal := escalStart s.params r.current }
      | .attending _ => { r with state := .attending none }) ∧
    t.notices = { s.notices with
      part := s.notices.part || cut == some .partNotice ||
        allChans.any (fun c => s.floor.chans[c].state == .opened)
      line := match cut with
        | some (.lineNotice l) => addLane s.notices.line l
        | _ => s.notices.line } ∧
    t.floor.laneFlags = match cut with
      | some (.laneNotice l) => addLane s.floor.laneFlags l
      | _ => s.floor.laneFlags

/-- The call inputs are sampled in lane order. At a lane whose two last samples agree the filtered level
takes the sample; a matching edge of an enabled input whose pending flag is clear sets the flag and raises
HELP with source BUTTON, and nothing else raises it (R136, R137). -/
def Obligations.CallInputsSampled : Prop :=
  (∀ (s : State) (levels : LaneSet), s.held = none →
    exec (.callInputSample levels) s = .next (State.finish
      { s with floor := allLanes.foldl (Floor.sampleCall s.env levels) s.floor })) ∧
  ∀ (e : Env) (levels : LaneSet) (f : Floor) (l : LaneIx),
    let c := (f.lane l).call
    let v := hasLane levels l
    let press := c.enabled = true ∧ c.pending = false ∧ c.prev = some v ∧ c.level = some (!v) ∧
      (c.edge = .both ∨ (v = true ∧ c.edge = .rise) ∨ (v = false ∧ c.edge = .fall))
    (press → Floor.sampleCall e levels f l =
      (f.modLane l (fun x =>
        { x with call := { c with prev := some v, level := some v, pending := true } })).raise
          e l .help none (some .button)) ∧
    (¬press → Floor.sampleCall e levels f l =
      f.modLane l (fun x =>
        { x with call := { c with prev := some v
                                  level := if c.prev = some v then some v else c.level } }))

/-! ## The receiver and request intake -/

/-- The findings of the store link receiver while the link is UP: the phase afterwards and the counter
that rises, stopping at 65,535 (R157, R170). While the link is DOWN no finding and no request changes
anything. -/
def Obligations.ReceiverFindings : Prop :=
  (∀ (c : Instr) (s : State), s.held = none → s.linkUp = false →
    (c.isFinding = true ∨ c.wire.isSome = true) → exec c s = .next s) ∧
  ∀ s : State, s.held = none → s.linkUp = true →
    exec .startCharacter s = .next { s with link := { s.link with rx := .message 0 } } ∧
    (s.link.rx = .hunt → exec .skippedCharacter s =
      .next { s with link := { s.link with skipped := min (s.link.skipped + 1) 65535 } }) ∧
    (s.link.rx ≠ .hunt → exec .skippedCharacter s =
      .next { s with link := { s.link with rx := .message 0 } }) ∧
    exec .badLength s = .next { s with
      link := { s.link with rx := .hunt, badLength := min (s.link.badLength + 1) 65535 } } ∧
    exec .badCheck s = .next { s with
      link := { s.link with rx := .hunt, badCheck := min (s.link.badCheck + 1) 65535 } } ∧
    exec .wrongChannel s = .next { s with
      link := { s.link with rx := .hunt, wrongChannel := min (s.link.wrongChannel + 1) 65535 } } ∧
    (∀ t, s.link.rx = .message t → 2 ≤ t → exec .truncated s = .next { s with
      link := { s.link with rx := .hunt, truncated := min (s.link.truncated + 1) 65535 } }) ∧
    (∀ t, s.link.rx = .message t → t < 2 → exec .truncated s = .next s) ∧
    (s.link.rx = .hunt → exec .truncated s = .next s)

/-- Request intake: a request that finds a PART RESET pending is discarded without a count, one that finds
no slot free is discarded and counted, the increment that reaches 65,535 setting the saturation flag and,
where it was clear, the PART notice flag (R179, R188, R190). LOST_REQUEST is that finding; where a slot is
free no request is lost (log 10). A request of no known kind or of a wrong length is answered
BAD_ARGUMENT (R180). -/
def Obligations.RequestIntake : Prop :=
  ∀ s : State, s.held = none → s.linkUp = true →
    (∀ c : Instr, (c = .lostRequest ∨ (c.wire.isSome = true ∧ c.wellFormed = true)) →
      (s.mgmt.resetPending = true →
        exec c s = .next { s with link := { s.link with rx := .hunt } }) ∧
      (s.mgmt.resetPending = false → 8 ≤ s.mgmt.slots.length →
        let saturates := decide (65534 ≤ s.mgmt.lost ∧ s.mgmt.lost ≠ 65535)
        exec c s = .next (State.arbiter
          { s with
              link := { s.link with rx := .hunt }
              mgmt := { s.mgmt with lost := min (s.mgmt.lost + 1) 65535
                                    lostSeen := s.mgmt.lostSeen || saturates }
              notices := { s.notices with
                part := s.notices.part || (saturates && !s.mgmt.lostSeen) } }))) ∧
    (s.mgmt.resetPending = false → s.mgmt.slots.length < 8 → exec .lostRequest s = .next s) ∧
    ∀ (tag : Byte) (kind : BitVec 6) (content : List Byte),
      catalogueRequest kind.toNat tag content = none → s.takesRequests →
      exec (.unknownRequest tag kind content) s = .next (s.answer kind tag .badArgument)

/-! ## Channel requests -/

/-- CREDIT (R161): a channel that opens sets the PART notice flag (R188). MAP SET (R162): the entry of the
kind takes the given channel or none, then deferred passes run by the map as it then stands. -/
def Obligations.CreditAndMapSet : Prop :=
  (∀ (s : State) (tag channel count : Byte), s.takesRequests →
    ((channel.toNat = 0 ∨ 3 < channel.toNat ∨ 63 < count.toNat) →
      exec (.credit tag channel count) s = .next (s.answer 1 tag .badArgument)) ∧
    ∀ c : ChanIx, channel.toNat = c.1 + 1 → count.toNat ≤ 63 →
      (s.floor.chans[c].state = .disabled →
        exec (.credit tag channel count) s = .next (s.answer 1 tag .badState)) ∧
      (s.floor.chans[c].state ≠ .disabled → count.toNat = 0 →
        exec (.credit tag channel count) s = .next (State.answer
          { s with floor := s.floor.modChan c (fun ch => { ch with credit := 0 }) } 1 tag .done)) ∧
      (s.floor.chans[c].state ≠ .disabled → 1 ≤ count.toNat →
        exec (.credit tag channel count) s = .next (State.answer
          { s with
              floor := s.floor.modChan c (fun ch =>
                { ch with credit := min (ch.credit + count.toNat) 63, state := .opened })
              notices := { s.notices with
                part := s.notices.part || s.floor.chans[c].state == .pending } } 1 tag .done))) ∧
  ∀ (s : State) (tag kind channel : Byte), s.takesRequests →
    ((kind.toNat = 0 ∨ 11 < kind.toNat ∨ 3 < channel.toNat) →
      exec (.mapSet tag kind channel) s = .next (s.answer 3 tag .badArgument)) ∧
    ∀ (k : Fin 11) (dest : Option ChanIx), kind.toNat = k.1 + 1 →
      channel.toNat = dest.elim 0 (·.1 + 1) →
      exec (.mapSet tag kind channel) s = .next (State.answer
        { s with
            map := upd s.map k dest
            floor := s.floor.sweep { s.env with map := upd s.map k dest } } 3 tag .done)

/-- The queued events of a channel that is disabled: the one in transmission stays, the others are
discarded, counted and their buffers returned; credit and pass count become 0; the channel enters
DISABLED with the PART flag set, and deferred passes run (R160, R188). That the returned buffers join the
free list head of the queue first is the model's choice (log 31). -/
def Obligations.ChannelSets : Prop :=
  ∀ (s : State) (tag channel enable : Byte), s.takesRequests →
    ((channel.toNat = 0 ∨ 3 < channel.toNat) →
      exec (.channelSetEnable tag channel enable) s = .next (s.answer 2 tag .badArgument) ∧
      exec (.channelSetDisable tag channel) s = .next (s.answer 2 tag .badArgument)) ∧
    (2 ≤ enable.toNat →
      exec (.channelSetEnable tag channel enable) s = .next (s.answer 2 tag .badArgument)) ∧
    ∀ c : ChanIx, channel.toNat = c.1 + 1 →
      (s.floor.chans[c].state = .disabled →
        (enable = 1 → exec (.channelSetEnable tag channel enable) s = .next (State.answer
          { s with
              floor := s.floor.modChan c (fun ch => { ch with state := .pending, credit := 0 })
              notices := { s.notices with part := true } } 2 tag .done)) ∧
        exec (.channelSetDisable tag channel) s = .next (s.answer 2 tag .done)) ∧
      (s.floor.chans[c].state ≠ .disabled →
        (enable = 1 →
          exec (.channelSetEnable tag channel enable) s = .next (s.answer 2 tag .done)) ∧
        let kept : List LaneEvent := if s.sending = some (.laneEvent c) then s.floor.chans[c].queue.take 1 else []
        let gone : List LaneEvent := if s.sending = some (.laneEvent c) then s.floor.chans[c].queue.drop 1
          else s.floor.chans[c].queue
        let f := s.floor.modChan c (fun ch =>
          { ch with queue := kept, discarded := min (ch.discarded + gone.length) 65535
                    credit := 0, pass := 0, state := .disabled })
        exec (.channelSetDisable tag channel) s = .next (State.answer
          { s with
              floor := Floor.sweep s.env { f with free := f.free ++ gone.map (·.frame.buf) }
              notices := { s.notices with part := true } } 2 tag .done))

/-! ## Table requests -/

/-- LOAD BEGIN is judged in the order of R105; a load that is in progress ends in a conflict (R106). -/
def Obligations.LoadBegins : Prop :=
  ∀ (s : State) (tag bank watch : Byte) (groups : BitVec 16), s.takesRequests →
    ((1 < bank.toNat ∨ 1024 < groups.toNat ∨ 128 < watch.toNat) →
      exec (.loadBegin tag bank groups watch) s = .next (s.answer 4 tag .badArgument)) ∧
    ∀ bk : BankId, bank.toNat = bk.num → groups.toNat ≤ 1024 → watch.toNat ≤ 128 →
      ((s.tables.bank bk).state = .current →
        exec (.loadBegin tag bank groups watch) s = .next (s.answer 4 tag .badState)) ∧
      ((s.tables.bank bk).state ≠ .current → 0 < s.floor.pinCount bk →
        exec (.loadBegin tag bank groups watch) s = .next (s.answer 4 tag .bankPinned)) ∧
      ((s.tables.bank bk).state ≠ .current → s.floor.pinCount bk = 0 →
        (∀ old, (s.tables.bank old).state = .loading →
          (s.tables.bank old.other).state ≠ .loading →
          exec (.loadBegin tag bank groups watch) s = .next (State.answer
            { s with
                tables := s.tables.setBank old { s.tables.bank old with state := .invalid }
                mgmt := { s.mgmt with conflictSeen := true }
                notices := { s.notices with part := true } } 4 tag .loadConflict)) ∧
        ((∀ any, (s.tables.bank any).state ≠ .loading) →
          exec (.loadBegin tag bank groups watch) s = .next (State.answer
            { s with
                tables := s.tables.setBank bk
                  { state := .loading, groups := [], watch := []
                    declGroups := groups.toNat, declWatch := watch.toNat }
                notices := { s.notices with part := true } } 4 tag .done)))

/-- LOAD GROUPS (R107): the checks of the whole request, then the entries in order; the group entry of a
code is afterwards that of the last entry written for it. -/
def Obligations.LoadGroupsWrites : Prop :=
  (∀ (s : State) (tag bank : Byte) (es : List GroupWrite), s.takesRequests →
    ((1 < bank.toNat ∨ es.length = 0 ∨ 8 < es.length ∨
        ∃ e ∈ es, 1023 < e.code.toNat ∨ 250 < e.tol.toNat) →
      exec (.loadGroups tag bank es) s = .next (s.answer 5 tag .badArgument)) ∧
    ∀ bk : BankId, bank.toNat = bk.num → 1 ≤ es.length → es.length ≤ 8 →
      (∀ e ∈ es, e.code.toNat ≤ 1023 ∧ e.tol.toNat ≤ 250) →
      ((s.tables.bank bk).state ≠ .loading →
        exec (.loadGroups tag bank es) s = .next (s.answer 5 tag .badState)) ∧
      ((s.tables.bank bk).state = .loading →
        let x := es.foldl Bank.writeGroup (s.tables.bank bk)
        exec (.loadGroups tag bank es) s = .next (State.answer
          { s with tables := s.tables.setBank bk x } 5 tag .done
            (num2c x.groups.length ++ num1c x.watch.length)))) ∧
  ∀ (b : Bank) (es : List GroupWrite) (code : BitVec 16),
    let x := es.foldl Bank.writeGroup b
    x = { b with groups := x.groups } ∧
    x.group code = match es.reverse.find? (fun e => e.code == code) with
      | some e => some { age := e.flags.getLsbD 0, attendant := e.flags.getLsbD 1
                         exempt := e.flags.getLsbD 2, tol := e.tol.toNat }
      | none => b.group code

/-- LOAD WATCH (R108): the checks of the whole request, then the entries in order, as many as there is
room for: the first entry of a new code that finds 128 entries ends the request with FULL. -/
def Obligations.LoadWatchWrites : Prop :=
  let put (b : Bank) (e : WatchWrite) : Bank :=
    { b with watch := putKey e.article.toNat
               { refer := e.flags.getLsbD 0, age := e.flags.getLsbD 1, exempt := e.flags.getLsbD 2
                 tol := if e.flags.getLsbD 3 then some e.tol.toNat else none } b.watch }
  (∀ (s : State) (tag bank : Byte) (es : List WatchWrite), s.takesRequests →
    ((1 < bank.toNat ∨ es.length = 0 ∨ 4 < es.length ∨
        ∃ e ∈ es, e.flags.getLsbD 3 = true ∧ 250 < e.tol.toNat) →
      exec (.loadWatch tag bank es) s = .next (s.answer 6 tag .badArgument)) ∧
    ∀ bk : BankId, bank.toNat = bk.num → 1 ≤ es.length → es.length ≤ 4 →
      (∀ e ∈ es, e.flags.getLsbD 3 = true → e.tol.toNat ≤ 250) →
      ((s.tables.bank bk).state ≠ .loading →
        exec (.loadWatch tag bank es) s = .next (s.answer 6 tag .badState)) ∧
      ((s.tables.bank bk).state = .loading →
        let r := (s.tables.bank bk).writeWatch es
        exec (.loadWatch tag bank es) s = .next (State.answer
          { s with tables := s.tables.setBank bk r.1 } 6 tag (if r.2 then .done else .full)
            (num2c r.1.groups.length ++ num1c r.1.watch.length)))) ∧
  ∀ (b : Bank) (es : List WatchWrite), ∃ n, n ≤ es.length ∧
    (b.writeWatch es).1 = (es.take n).foldl put b ∧
    (b.writeWatch es).2 = decide (n = es.length) ∧
    (∀ m, m < n → ∀ e, es[m]? = some e →
      (((es.take m).foldl put b).watched e.article).isSome = true ∨
        ((es.take m).foldl put b).watch.length < 128) ∧
    (∀ e, es[n]? = some e →
      (b.writeWatch es).1.watched e.article = none ∧ 128 ≤ (b.writeWatch es).1.watch.length)

/-- LOAD END (R109): both counts equal, the bank enters READY; either differs, it enters INVALID and the
written and declared counts are given (their order is the model's, log 15). -/
def Obligations.LoadEnds : Prop :=
  ∀ (s : State) (tag bank : Byte), s.takesRequests →
    (1 < bank.toNat → exec (.loadEnd tag bank) s = .next (s.answer 7 tag .badArgument)) ∧
    ∀ bk : BankId, bank.toNat = bk.num →
      let x := s.tables.bank bk
      (x.state ≠ .loading → exec (.loadEnd tag bank) s = .next (s.answer 7 tag .badState)) ∧
      (x.state = .loading → x.groups.length = x.declGroups → x.watch.length = x.declWatch →
        exec (.loadEnd tag bank) s = .next (State.answer
          { s with tables := s.tables.setBank bk { x with state := .ready }
                   notices := { s.notices with part := true } } 7 tag .done)) ∧
      (x.state = .loading → (x.groups.length ≠ x.declGroups ∨ x.watch.length ≠ x.declWatch) →
        exec (.loadEnd tag bank) s = .next (State.answer
          { s with tables := s.tables.setBank bk { x with state := .invalid }
                   notices := { s.notices with part := true } } 7 tag .countMismatch
            (num2c x.groups.length ++ num1c x.watch.length ++ num2c x.declGroups
              ++ num1c x.declWatch)))

/-- LOAD ABORT (R110): a LOADING bank enters INVALID with its entries and counts, any other is answered
BAD_STATE and unchanged, and the LOAD_CONFLICT flag stays as it was. -/
def Obligations.LoadAborts : Prop :=
  ∀ (s : State) (tag bank : Byte), s.takesRequests →
    (1 < bank.toNat → exec (.loadAbort tag bank) s = .next (s.answer 8 tag .badArgument)) ∧
    ∀ bk : BankId, bank.toNat = bk.num →
      ((s.tables.bank bk).state = .loading →
        (exec (.loadAbort tag bank) s = .next (State.answer
          { s with tables := s.tables.setBank bk { s.tables.bank bk with state := .invalid }
                   notices := { s.notices with part := true } } 8 tag .done)) ∧
        ∃ t, exec (.loadAbort tag bank) s = .next t ∧
          t.tables = s.tables.setBank bk { s.tables.bank bk with state := .invalid } ∧
          t.mgmt.conflictSeen = s.mgmt.conflictSeen) ∧
      ((s.tables.bank bk).state ≠ .loading →
        (exec (.loadAbort tag bank) s = .next (s.answer 8 tag .badState)) ∧
        ∃ t, exec (.loadAbort tag bank) s = .next t ∧ t.tables = s.tables ∧
          t.mgmt.conflictSeen = s.mgmt.conflictSeen)

/-- COMMIT (R111): a READY bank enters CURRENT and the bank that was CURRENT enters READY; a bank in any
other state is answered BAD_STATE. -/
def Obligations.Commits : Prop :=
  ∀ (s : State) (tag bank : Byte), s.takesRequests →
    (1 < bank.toNat → exec (.commit tag bank) s = .next (s.answer 9 tag .badArgument)) ∧
    ∀ bk : BankId, bank.toNat = bk.num →
      ((s.tables.bank bk).state ≠ .ready →
        exec (.commit tag bank) s = .next (s.answer 9 tag .badState)) ∧
      ((s.tables.bank bk).state = .ready →
        let other := s.tables.bank bk.other
        let others := s.tables.setBank bk.other
          { other with state := if other.state = .current then .ready else other.state }
        exec (.commit tag bank) s = .next (State.answer
          { s with tables := others.setBank bk { s.tables.bank bk with state := .current }
                   notices := { s.notices with part := true } } 9 tag .done))

/-- BADGE SET (R114, R88): a badge not in the list is added where fewer than 64 are held; a new level of
a listed badge replaces the old one, closing its open sessions if lower and raising their level if
higher. -/
def Obligations.BadgeSets : Prop :=
  ∀ (s : State) (tag level : Byte) (badge : BadgeNo), s.takesRequests →
    ((level.toNat = 0 ∨ 2 < level.toNat) →
      exec (.badgeSet tag badge level) s = .next (s.answer 10 tag .badArgument)) ∧
    ∀ lv : Level, level.toNat = lv.code →
      let tables := { s.tables with badges := putKey badge.toNat lv s.tables.badges }
      (s.tables.level badge = none → 64 ≤ s.tables.badges.length →
        exec (.badgeSet tag badge level) s = .next (s.answer 10 tag .full)) ∧
      (s.tables.level badge = none → s.tables.badges.length < 64 →
        exec (.badgeSet tag badge level) s =
          .next (State.answer { s with tables := tables } 10 tag .done)) ∧
      (s.tables.level badge = some lv →
        exec (.badgeSet tag badge level) s = .next (s.answer 10 tag .done)) ∧
      (s.tables.level badge = some .two → lv = .one →
        exec (.badgeSet tag badge level) s = .next (State.answer
          { s with
              tables := tables
              floor := allLanes.foldl (fun f l =>
                if (f.lane l).session.any (fun se => se.badge == badge)
                then f.closeSession s.params l else f) s.floor } 10 tag .done)) ∧
      (s.tables.level badge = some .one → lv = .two →
        exec (.badgeSet tag badge level) s = .next (State.answer
          { s with
              tables := tables
              floor := allLanes.foldl (fun f l =>
                if (f.lane l).session.any (fun se => se.badge == badge)
                then f.modLane l (fun x =>
                  { x with session := x.session.map (fun se => { se with level := .two }) })
                else f) s.floor } 10 tag .done))

/-- BADGE CLEAR of one badge (mode 0) and of ALL (mode 1): the entries go, and the open sessions they hold
close (R115, R88); another mode is answered BAD_ARGUMENT (11.2). -/
def Obligations.BadgeClears : Prop :=
  ∀ (s : State) (tag mode : Byte) (badge : BadgeNo), s.takesRequests →
    (2 ≤ mode.toNat →
      exec (.badgeClear tag mode badge) s = .next (s.answer 11 tag .badArgument)) ∧
    (mode = 0 → s.tables.level badge = none →
      exec (.badgeClear tag mode badge) s = .next (s.answer 11 tag .notFound)) ∧
    (mode = 0 → (s.tables.level badge).isSome = true →
      exec (.badgeClear tag mode badge) s = .next (State.answer
        { s with
            tables := { s.tables with
              badges := s.tables.badges.filter (fun p => p.1 != badge.toNat) }
            floor := allLanes.foldl (fun f l =>
              if (f.lane l).session.any (fun se => se.badge == badge)
              then f.closeSession s.params l else f) s.floor } 11 tag .done)) ∧
    exec (.badgeClearAll tag badge) s = .next (State.answer
      { s with
          tables := { s.tables with badges := [] }
          floor := allLanes.foldl (fun f l =>
            if (f.lane l).session.isSome then f.closeSession s.params l else f) s.floor }
        11 tag .done)

/-- ZONE SET (R116): the console's lane set is replaced, the exhaustion check runs on every WAITING record
without a rise, and dispatch is due. The queue order holds every record once, by current priority, stamp,
lane and reason (R52). Dispatch offers each WAITING record, in that order, to the first qualifying console
of the free order (R62): the record is OFFERED and unsent, the console OFFERED with its pending flag and
cause saved, OFFER pending, and out of the free order (R63). -/
def Obligations.ZoneSets : Prop :=
  (∀ (s : State) (tag console : Byte) (lanes : LaneSet), s.takesRequests →
    (3 < console.toNat →
      exec (.zoneSet tag console lanes) s = .next (s.answer 12 tag .badArgument)) ∧
    ∀ c : ConsoleIx, console.toNat = c.1 →
      let zones := upd s.tables.zones c lanes
      exec (.zoneSet tag console lanes) s = .next (State.answer
        { s with
            tables := { s.tables with zones := zones }
            floor := { s.floor with
              desk := { s.floor.desk.checkWaiting s.params zones with dispatchDue := true } } }
        12 tag .done)) ∧
  (∀ d : Desk,
    let rank (a b : Record) : Prop := b.current < a.current ∨ (b.current = a.current ∧
      (a.stamp < b.stamp ∨ (a.stamp = b.stamp ∧
        (a.lane < b.lane ∨ (a.lane = b.lane ∧ a.reason.ix ≤ b.reason.ix)))))
    (∀ k r, (k, r) ∈ d.queue ↔ d.recAt k = some r) ∧ (d.queue.map (·.1)).Nodup ∧
    d.queue.Pairwise (fun a b => rank a.2 b.2)) ∧
  ∀ (d : Desk) (zones : Vector LaneSet 4),
    let covered (d : Desk) (l : LaneIx) : Bool :=
      allConsoles.any (fun c => (d.console c).state != .absent && hasLane zones[c] l)
    let qualifies (d : Desk) (r : Record) (c : ConsoleIx) : Bool :=
      !hasConsole r.declined c && (hasLane zones[c] r.lane || !covered d r.lane)
    let offer (d : Desk) (k : SlotIx) (c : ConsoleIx) : Desk :=
      { (d.modRec k (fun r => { r with state := .offered c false })).modConsole c (fun x =>
          { state := .offered k, saved := some (x.pending, x.cause), pending := true
            cause := .offer }) with
        freeOrder := d.freeOrder.filter (· != c) }
    d.dispatch zones = (d.queue.filter (fun kr => kr.2.state == .waiting)).foldl
      (fun d kr =>
        match d.freeOrder.filter (qualifies d kr.2) with
        | c :: _ => offer d kr.1 c
        | [] => d) { d with dispatchDue := false }

/-! ## Lane and line requests -/

/-- LANE OPEN by the lane's state (R5): a CLOSED lane enters READY where a bank is CURRENT, LINK is raised
where the drop's trouble holds and LINK is not raised, and the line wakes if QUIET or loses its quiet
pending (R133, R134); a pending close is withdrawn; an open lane is unchanged. -/
def Obligations.LaneOpens : Prop :=
  ∀ (s : State) (tag lane : Byte), s.takesRequests →
    (23 < lane.toNat →
      exec (.laneOpen tag lane) s = .next (s.answer 13 tag .badArgument)) ∧
    ∀ l : LaneIx, lane.toNat = l.1 →
      let x := s.floor.lane l
      (x.state = .closed → (∀ bk, (s.tables.bank bk).state ≠ .current) →
        exec (.laneOpen tag lane) s = .next (s.answer 13 tag .noTables)) ∧
      (x.state = .closed → (∃ bk, (s.tables.bank bk).state = .current) →
        let f := (s.floor.modLane l (fun x => { x with state := .ready })).flag l
        exec (.laneOpen tag lane) s = .next (State.answer
          { s with
              floor := if x.drop.trouble = true ∧ x.has .link = false
                then f.raise s.env l .link none none else f
              lines := upd s.lines (lineOf l)
                (match (s.line (lineOf l)).state with
                  | .quiet => { s.line (lineOf l) with state := .waking, settle := some 2 }
                  | .active => { s.line (lineOf l) with quietPending := false }
                  | .waking => s.line (lineOf l)) } 13 tag .done)) ∧
      (x.state = .closingScan → exec (.laneOpen tag lane) s = .next (State.answer
        { s with floor := (s.floor.modLane l (fun x => { x with state := .scanning })).flag l }
        13 tag .done)) ∧
      (x.state = .closingPay → exec (.laneOpen tag lane) s = .next (State.answer
        { s with floor := (s.floor.modLane l (fun x => { x with state := .paying })).flag l }
        13 tag .done)) ∧
      ((x.state = .ready ∨ x.state = .scanning ∨ x.state = .paying) →
        exec (.laneOpen tag lane) s = .next (s.answer 13 tag .done))

/-- LANE CLOSE without FORCE by the lane's state (R6), and what entering CLOSED does to a lane (R9): every
reason but HELP and LINK goes, the deferred frames are freed and counted, and the session and the totals
stay; the records of the removed reasons end as lane-ended ones (`Floor.removeAll`, which
`Obligations.ReasonsRaisedAndTakenOut` gives), and the lane's remaining records lose the need for presence
that a REFER added. A FORCE character other than 0 and 1 is answered BAD_ARGUMENT (R194). That the freed
buffers join the free list head of the deferred list first is the model's choice (log 31). -/
def Obligations.LaneCloses : Prop :=
  (∀ (s : State) (tag lane force : Byte), s.takesRequests →
    ((23 < lane.toNat ∨ 2 ≤ force.toNat) →
      exec (.laneClose tag lane force) s = .next (s.answer 14 tag .badArgument)) ∧
    ∀ l : LaneIx, lane.toNat = l.1 → force = 0 →
      ((s.floor.lane l).state = .ready → exec (.laneClose tag lane force) s =
        .next (State.answer { s with floor := s.floor.enterClosed l } 14 tag .done)) ∧
      ((s.floor.lane l).state = .scanning → exec (.laneClose tag lane force) s = .next (State.answer
        { s with floor := (s.floor.modLane l (fun x => { x with state := .closingScan })).flag l }
        14 tag .done)) ∧
      ((s.floor.lane l).state = .paying → exec (.laneClose tag lane force) s = .next (State.answer
        { s with floor := (s.floor.modLane l (fun x => { x with state := .closingPay })).flag l }
        14 tag .done)) ∧
      (((s.floor.lane l).state = .closed ∨ (s.floor.lane l).state.isClosing = true) →
        exec (.laneClose tag lane force) s = .next (s.answer 14 tag .done))) ∧
  ∀ (f : Floor) (l : LaneIx),
    let x := f.lane l
    let g := f.enterClosed l
    (g.lane l).state = .closed ∧ (g.lane l).deferred = [] ∧
    (g.lane l).reasons = x.reasons.filter (fun r => r == .help || r == .link) ∧
    (g.lane l).counters = { x.counters with
      freed := min (x.counters.freed + x.deferred.length) 65535 } ∧
    (g.lane l).session = x.session ∧ (g.lane l).totals = x.totals ∧ (g.lane l).txn = x.txn ∧
    g.free = f.free ++ x.deferred.map (·.buf) ∧
    (∀ other, other ≠ l → g.lane other = f.lane other) ∧
    (x.state ≠ .closed → hasLane g.laneFlags l = true) ∧ hasLane g.touched l = true ∧
    let h := f.removeAll l (x.reasons.filter (fun r => r != .help && r != .link))
    g.desk = { h.desk with slots := g.desk.slots } ∧
    (∀ k : SlotIx, g.desk.slots[k].issue = h.desk.slots[k].issue) ∧
    (∀ k : SlotIx, g.desk.recAt k = (h.desk.recAt k).map (fun r =>
      { r with needsPresence := if r.lane = l then r.reason.needsPresence else r.needsPresence })) ∧
    ∀ k r, g.desk.recAt k = some r → r.lane = l → r.needsPresence = r.reason.needsPresence

/-- LANE CLOSE with FORCE (R7): the session closes, the transaction, if there is one, ends cancelled, and
the lane enters CLOSED, in every state. On the queue the session's close comes first (R76), then the records
of the removed reasons end as lane-ended ones (R77). That the freed buffers join the free list head of the
deferred list first is the model's choice (log 31). -/
def Obligations.LaneClosesByForce : Prop :=
  (∀ (s : State) (tag lane : Byte), s.takesRequests →
    (23 < lane.toNat →
      exec (.laneCloseForce tag lane) s = .next (s.answer 14 tag .badArgument)) ∧
    ∀ l : LaneIx, lane.toNat = l.1 →
      exec (.laneCloseForce tag lane) s = .next (State.answer
        { s with floor := s.floor.forceClose s.params l } 14 tag .done)) ∧
  ∀ (p : Params) (f : Floor) (l : LaneIx), (f.lane l).legal →
    let x := f.lane l
    let g := f.forceClose p l
    let y := g.lane l
    y.state = .closed ∧ y.session = none ∧ y.presence = none ∧ y.stack = [] ∧ y.pinned = none ∧
    y.deferred = [] ∧ y.bagSettle = none ∧ y.inactivity = none ∧ y.totals = x.totals ∧
    y.txn = x.txn ∧
    (x.state ≠ .closed → y.reasons = x.reasons.filter (fun r => r == .help || r == .link)) ∧
    (∀ other, other ≠ l → g.lane other = f.lane other) ∧
    g.free = f.free ++ x.deferred.map (·.buf) ∧
    let a := f.closeSession p l
    let h := a.removeAll l (x.reasons.filter (fun r => r != .help && r != .link))
    (x.state = .closed → g = a) ∧
    (x.state ≠ .closed →
      y.counters = { x.counters with
        freed := min (x.counters.freed + x.deferred.length) 65535 } ∧
      hasLane g.laneFlags l = true ∧
      g.desk = { h.desk with slots := g.desk.slots } ∧
      (∀ k : SlotIx, g.desk.slots[k].issue = h.desk.slots[k].issue) ∧
      ∀ k : SlotIx, g.desk.recAt k = (h.desk.recAt k).map (fun r =>
        { r with needsPresence :=
            if r.lane = l then r.reason.needsPresence else r.needsPresence }))

/-- LANE RESET (R8, R47, R48): answered DONE in every state; what it clears, what it keeps, the new state,
and a directive word of a new generation. LINK alone is raised again, where the lane is then READY and its
drop's trouble holds. On the queue the session closes, the transaction ends, the records of all reasons end
as lane-ended ones (R8, R76, R77), the freed slots take unqueued reasons (R54), and LINK is raised. That the
last accepted sequence goes even where the last frame was accepted before the reset is the model's choice
(log 34), as is the order of the freed buffers (log 31). -/
def Obligations.LaneResets : Prop :=
  (∀ (s : State) (tag lane : Byte), s.takesRequests →
    (23 < lane.toNat →
      exec (.laneReset tag lane) s = .next (s.answer 15 tag .badArgument)) ∧
    ∀ l : LaneIx, lane.toNat = l.1 →
      exec (.laneReset tag lane) s = .next (State.answer
        { s with floor := s.floor.resetLane s.env l } 15 tag .done)) ∧
  ∀ (e : Env) (f : Floor) (l : LaneIx), (f.lane l).legal →
    let x := f.lane l
    let g := f.resetLane e l
    let y := g.lane l
    y.state = (if x.state = .ready ∨ x.state = .scanning ∨ x.state = .paying then .ready
      else .closed) ∧
    y.totals = { itemCount := 0, value := 0, expected := 0, tolerance := 0, bag := none
                 ageCount := 0, ageApproved := false, highRaised := false } ∧
    y.stack = [] ∧ y.deferred = [] ∧ y.session = none ∧ y.pinned = none ∧
    y.bagSettle = none ∧ y.inactivity = none ∧ y.presence = none ∧
    y.refusal = none ∧ y.refusalTimer = none ∧ y.refusalMark = false ∧ y.help = {} ∧
    y.call = { x.call with pending := false } ∧ y.drop = { x.drop with lastSeq := none } ∧
    y.txn = x.txn ∧ y.echo = x.echo ∧ y.lastDirect = x.lastDirect ∧
    y.counters = { x.counters with
      freed := min (x.counters.freed + x.deferred.length) 65535 } ∧
    y.reasons = (if y.state = .ready ∧ x.drop.trouble = true then [.link] else []) ∧
    y.word.gen ≠ x.word.gen ∧
    g.free = f.free ++ x.deferred.map (·.buf) ∧
    (∀ other, other ≠ l → g.lane other = { f.lane other with raised := (g.lane other).raised }) ∧
    let a := f.closeSession e.params l
    let b := if x.state.inTxn then (a.endTxn l).1 else a
    let c := b.removeAll l (b.lane l).reasons
    ∃ d : Floor, d.desk = c.desk ∧ (∀ other, other ≠ l → d.lane other = f.lane other) ∧
      (d.lane l).state = y.state ∧ (d.lane l).reasons = [] ∧ (d.lane l).session = none ∧
      g.desk = if y.state = .ready ∧ x.drop.trouble = true
        then ((d.insertions e.params).raise e l .link none none).desk
        else (d.insertions e.params).desk

/-- LINE QUIET and LINE WAKE by the line's state (R133, R134). -/
def Obligations.LineQuietsAndWakes : Prop :=
  ∀ (s : State) (tag line : Byte), s.takesRequests →
    (3 < line.toNat →
      exec (.lineQuiet tag line) s = .next (s.answer 17 tag .badArgument) ∧
      exec (.lineWake tag line) s = .next (s.answer 18 tag .badArgument)) ∧
    ∀ n : LineIx, line.toNat = n.1 →
      let x := s.line n
      let allClosed := ∀ d, (s.floor.lane (laneOf n d)).state = .closed
      (x.state = .waking →
        exec (.lineQuiet tag line) s = .next (s.answer 17 tag .badState) ∧
        exec (.lineWake tag line) s = .next (s.answer 18 tag .done)) ∧
      (x.state = .quiet →
        exec (.lineQuiet tag line) s = .next (s.answer 17 tag .done) ∧
        exec (.lineWake tag line) s = .next (State.answer
          { s with lines := upd s.lines n { x with state := .waking, settle := some 2 } }
          18 tag .done)) ∧
      (x.state = .active →
        exec (.lineWake tag line) s = .next (State.answer
          { s with lines := upd s.lines n { x with quietPending := false } } 18 tag .done) ∧
        (x.quietPending = true →
          exec (.lineQuiet tag line) s = .next (s.answer 17 tag .done)) ∧
        (x.quietPending = false → ¬allClosed →
          exec (.lineQuiet tag line) s = .next (s.answer 17 tag .badState)) ∧
        (x.quietPending = false → allClosed → x.turn.isSome = true →
          exec (.lineQuiet tag line) s = .next (State.answer
            { s with lines := upd s.lines n { x with quietPending := true } } 17 tag .done)) ∧
        (x.quietPending = false → allClosed → x.turn = none →
          exec (.lineQuiet tag line) s = .next (State.answer
            { s with
                floor := { s.floor with free := s.floor.free ++ x.slot.toList }
                lines := upd s.lines n
                  { x with state := .quiet, quietPending := false, slot := none, turn := none
                           attention := .inactive, idleWait := false } } 17 tag .done)))

/-! ## Console requests -/

/-- CONSOLE ON and CONSOLE OFF (R73, R74), and the exhaustion check without a rise that they and ZONE SET
run on every WAITING record (R64): where every eligible console, and at least one, is in the declined set,
the set is cleared and dispatch is due; the eligible consoles are the present ones whose zone holds the
lane, or every present one where there is no such console. -/
def Obligations.ConsoleJoinsAndLeaves : Prop :=
  (∀ (s : State) (tag console : Byte), s.takesRequests →
    (3 < console.toNat →
      exec (.consoleOn tag console) s = .next (s.answer 19 tag .badArgument) ∧
      exec (.consoleOff tag console) s = .next (s.answer 20 tag .badArgument)) ∧
    ∀ c : ConsoleIx, console.toNat = c.1 →
      let d := s.floor.desk
      let zones := s.tables.zones
      ((d.console c).state ≠ .absent →
        exec (.consoleOn tag console) s = .next (s.answer 19 tag .done)) ∧
      ((d.console c).state = .absent →
        exec (.consoleOff tag console) s = .next (s.answer 20 tag .done) ∧
        let joined := { d.modConsole c (fun x => { x with state := .free, pending := false }) with
          freeOrder := d.freeOrder ++ [c], dispatchDue := true }
        exec (.consoleOn tag console) s = .next (State.answer
          { s with floor := { s.floor with desk := joined.checkWaiting s.params zones } }
          19 tag .done)) ∧
      ((d.console c).state ≠ .absent →
        let d1 := match (d.console c).state with
          | .offered k | .busy k => d.modRec k (fun r =>
            match r.state with
            | .waiting => r
            | .offered _ _ => { r with state := .waiting, offer := none }
            | .claimed _ =>
              { r with state := .waiting, claim := none, offer := none
                       escal := escalStart s.params r.current }
            | .attending _ => { r with state := .attending none })
          | .absent | .free => d
        let left := { d1.modConsole c (fun x =>
              { x with state := .absent, saved := none, pending := true, cause := .loggedOff }) with
          freeOrder := d.freeOrder.filter (· != c) }
        exec (.consoleOff tag console) s = .next (State.answer
          { s with floor := { s.floor with
              desk := { left.checkWaiting s.params zones with dispatchDue := true } } }
          20 tag .done))) ∧
  ∀ (d : Desk) (p : Params) (zones : Vector LaneSet 4),
    let t := d.checkWaiting p zones
    let present (c : ConsoleIx) : Prop := (d.console c).state ≠ .absent
    let eligible (l : LaneIx) (c : ConsoleIx) : Prop :=
      present c ∧ (hasLane zones[c] l = true ∨ ∀ o, present o → hasLane zones[o] l = false)
    let exhausted (r : Record) : Prop := (∃ c, eligible r.lane c) ∧
      ∀ c, eligible r.lane c → hasConsole r.declined c = true
    t = { d with slots := t.slots, dispatchDue := t.dispatchDue } ∧
    (∀ k : SlotIx, t.slots[k].issue = d.slots[k].issue) ∧
    (∀ k, d.recAt k = none → t.recAt k = none) ∧
    (∀ k r, d.recAt k = some r →
      (r.state = .waiting → exhausted r → t.recAt k = some { r with declined := 0 }) ∧
      (r.state ≠ .waiting ∨ ¬exhausted r → t.recAt k = some r)) ∧
    (t.dispatchDue = true ↔ d.dispatchDue = true ∨
      ∃ k r, d.recAt k = some r ∧ r.state = .waiting ∧ exhausted r)

/-- The checks that CLAIM, DECLINE, RELEASE and RESOLVE share (R66, R51): a console above 3, a slot above
47 or an issue above 15 is answered BAD_ARGUMENT, an id that names no live record NOT_FOUND. -/
def Obligations.RecordRequestsChecked : Prop :=
  ∀ (s : State) (tag console slot issue action : Byte), s.takesRequests → action ≠ 1 →
    let all (a : Answer) : Prop :=
      exec (.claim tag console slot issue) s = .next (s.answer 21 tag a) ∧
      exec (.decline tag console slot issue) s = .next (s.answer 22 tag a) ∧
      exec (.release tag console slot issue) s = .next (s.answer 23 tag a) ∧
      (action = 0 → exec (.resolveClear tag console slot issue action) s =
        .next (s.answer 24 tag a)) ∧
      exec (.resolveRefer tag console slot issue) s = .next (s.answer 24 tag a)
    (2 ≤ action.toNat → exec (.resolveClear tag console slot issue action) s =
      .next (s.answer 24 tag .badArgument)) ∧
    ((3 < console.toNat ∨ 47 < slot.toNat ∨ 15 < issue.toNat) → all .badArgument) ∧
    ∀ k : SlotIx, console.toNat ≤ 3 → slot.toNat = k.1 → issue.toNat ≤ 15 →
      (s.floor.desk.recAt k = none ∨ s.floor.desk.slots[k].issue.toNat ≠ issue.toNat) →
      all .notFound

/-- CLAIM of a live record (R67, R68): refused by the console's state, then by the record's; else the
record is CLAIMED by the claimant, which is BUSY with it, another console's offer of it is withdrawn, and
the claimant's other offer goes back to WAITING. -/
def Obligations.Claims : Prop :=
  (∀ (s : State) (tag console slot issue : Byte) (c : ConsoleIx) (k : SlotIx) (r : Record),
    s.takesRequests → console.toNat = c.1 → slot.toNat = k.1 →
    s.floor.desk.slots[k].issue.toNat = issue.toNat → s.floor.desk.recAt k = some r →
    let con := s.floor.desk.console c
    ((con.state = .absent ∨ ∃ j, con.state = .busy j) →
      exec (.claim tag console slot issue) s = .next (s.answer 21 tag .badState)) ∧
    ((con.state = .free ∨ ∃ j, con.state = .offered j) →
      ((∃ o, r.state = .claimed o) ∨ (∃ o, r.state = .attending o) →
        exec (.claim tag console slot issue) s = .next (s.answer 21 tag .taken)) ∧
      (r.state = .waiting ∨ (∃ o sent, r.state = .offered o sent) →
        exec (.claim tag console slot issue) s = .next (State.answer
          { s with floor := { s.floor with desk := s.floor.desk.claim s.params c k r } }
          21 tag .done)))) ∧
  ∀ (d : Desk) (p : Params) (c : ConsoleIx) (k : SlotIx) (r : Record), d.recAt k = some r →
    let t := d.claim p c k r
    t.recAt k = some { r with state := .claimed c, offer := none, claim := some p.claim
                              escal := none } ∧
    (∀ j, j ≠ k → (d.console c).state = .offered j →
      t.recAt j = (d.recAt j).map (fun x => { x with state := .waiting, offer := none })) ∧
    (∀ j, j ≠ k → (d.console c).state ≠ .offered j → t.recAt j = d.recAt j) ∧
    t.console c = { d.console c with state := .busy k, saved := none, pending := true
                                     cause := .claimed } ∧
    (∀ o, o ≠ c → r.state = .offered o true →
      t.console o = { d.console o with state := .free, pending := true, cause := .withdrawn }) ∧
    (∀ o pending cause, o ≠ c → r.state = .offered o false →
      (d.console o).saved = some (pending, cause) →
      t.console o = { d.console o with state := .free, pending := pending, cause := cause
                                       saved := none }) ∧
    (∀ o, o ≠ c → (∀ sent, r.state ≠ .offered o sent) → t.console o = d.console o) ∧
    t.freeOrder = ((match r.state with
      | .offered o _ => if o = c then d.freeOrder else d.freeOrder ++ [o]
      | _ => d.freeOrder).filter (· != c)) ∧
    t.dispatchDue = true

/-- DECLINE of a live record (R69): taken only where the record is OFFERED to the console; the record goes
back to WAITING with the console in its declined set, the console is FREE at the tail of the free order
(as before the offer, where it had not been sent: R61), the exhaustion check runs with a rise, and
dispatch is due. In every other case it is answered BAD_STATE. The check with a rise (R64): where every
eligible console, and at least one, is in the declined set, the set is cleared, the record rises one class
below 3, its escalation timer started again in WAITING and OFFERED (R56, R57), and dispatch is due. -/
def Obligations.Declines : Prop :=
  (∀ (s : State) (tag console slot issue : Byte) (c : ConsoleIx) (k : SlotIx) (r : Record),
    s.takesRequests → console.toNat = c.1 → slot.toNat = k.1 →
    s.floor.desk.slots[k].issue.toNat = issue.toNat → s.floor.desk.recAt k = some r →
    ((∀ sent, r.state ≠ .offered c sent) →
      exec (.decline tag console slot issue) s = .next (s.answer 22 tag .badState)) ∧
    ∀ sent, r.state = .offered c sent →
      let d1 := s.floor.desk.modRec k (fun r =>
        { r with state := .waiting, offer := none, declined := addConsole r.declined c })
      let d2 := { d1.modConsole c (fun x =>
          match sent, x.saved with
          | true, _ => { x with state := .free }
          | false, none => { x with state := .free }
          | false, some (pending, cause) =>
            { x with state := .free, pending := pending, cause := cause, saved := none }) with
        freeOrder := s.floor.desk.freeOrder ++ [c], dispatchDue := true }
      exec (.decline tag console slot issue) s = .next (State.answer
        { s with floor := { s.floor with
            desk := { d2.checkExhausted s.params s.tables.zones true k with dispatchDue := true } } }
        22 tag .done)) ∧
  ∀ (d : Desk) (p : Params) (zones : Vector LaneSet 4) (k : SlotIx) (r : Record),
    d.recAt k = some r →
    let present (c : ConsoleIx) : Prop := (d.console c).state ≠ .absent
    let eligible (c : ConsoleIx) : Prop :=
      present c ∧ (hasLane zones[c] r.lane = true ∨ ∀ o, present o → hasLane zones[o] r.lane = false)
    let exhausted : Prop := (∃ c, eligible c) ∧ ∀ c, eligible c → hasConsole r.declined c = true
    (exhausted → d.checkExhausted p zones true k =
      { d.modRec k (fun r =>
          { r with
              declined := 0
              current := if r.current = 3 then 3 else r.current + 1
              escal := if r.current = 3 then r.escal else
                match r.state with
                | .waiting | .offered _ _ => escalStart p (r.current + 1)
                | .claimed _ | .attending _ => r.escal }) with dispatchDue := true }) ∧
    (¬exhausted → d.checkExhausted p zones true k = d)

/-- RELEASE of a live record (R70): taken only where the record is CLAIMED by the console; the claim timer
stops, the record goes back to WAITING with its priority and its declined set, its escalation timer
started, the console is FREE at the tail of the free order without a snapshot marking, and dispatch is
due. In every other case it is answered BAD_STATE. -/
def Obligations.Releases : Prop :=
  ∀ (s : State) (tag console slot issue : Byte) (c : ConsoleIx) (k : SlotIx) (r : Record),
    s.takesRequests → console.toNat = c.1 → slot.toNat = k.1 →
    s.floor.desk.slots[k].issue.toNat = issue.toNat → s.floor.desk.recAt k = some r →
    (r.state ≠ .claimed c →
      exec (.release tag console slot issue) s = .next (s.answer 23 tag .badState)) ∧
    (r.state = .claimed c →
      let d1 := s.floor.desk.modRec k (fun r =>
        { r with state := .waiting, claim := none, offer := none
                 escal := escalStart s.params r.current })
      exec (.release tag console slot issue) s = .next (State.answer
        { s with floor := { s.floor with
            desk := { d1.modConsole c (fun x => { x with state := .free }) with
              freeOrder := s.floor.desk.freeOrder ++ [c], dispatchDue := true } } }
        23 tag .done))

/-- RESOLVE of a live record (R71): taken only where the record is CLAIMED or ATTENDING with the console as
claimed-by. REFER sets the presence need. CLEAR of LINK is answered BAD_STATE, then of a record that needs
presence PRESENCE_REQUIRED; else its remote effect is made, and the reason is resolved with its deferred
pass (R36, R41). -/
def Obligations.Resolves : Prop :=
  ∀ (s : State) (tag console slot issue : Byte) (c : ConsoleIx) (k : SlotIx) (r : Record),
    s.takesRequests → console.toNat = c.1 → slot.toNat = k.1 →
    s.floor.desk.slots[k].issue.toNat = issue.toNat → s.floor.desk.recAt k = some r →
    let mine := r.state = .claimed c ∨ r.state = .attending (some c)
    (¬mine →
      exec (.resolveClear tag console slot issue 0) s = .next (s.answer 24 tag .badState) ∧
      exec (.resolveRefer tag console slot issue) s = .next (s.answer 24 tag .badState)) ∧
    (mine → exec (.resolveRefer tag console slot issue) s = .next (State.answer
      { s with floor := { s.floor with
          desk := s.floor.desk.modRec k (fun r => { r with needsPresence := true }) } }
      24 tag .done)) ∧
    (mine → r.reason = .link →
      exec (.resolveClear tag console slot issue 0) s = .next (s.answer 24 tag .badState)) ∧
    (mine → r.reason ≠ .link → r.needsPresence = true →
      exec (.resolveClear tag console slot issue 0) s =
        .next (s.answer 24 tag .presenceRequired)) ∧
    (mine → r.reason ≠ .link → r.needsPresence = false →
      let f := (s.floor.modLane r.lane (fun x =>
        if r.reason = .weight then
          { x with totals := { x.totals with expected := x.totals.bag.getD 0 } }
        else x)).resolve r.lane r.reason
      exec (.resolveClear tag console slot issue 0) s = .next (State.answer
        { s with floor := if (s.floor.lane r.lane).has r.reason then f.pass s.env r.lane else f }
        24 tag .done))

/-! ## Reads and settings -/

/-- READ LANE, READ QUEUE and READ STATUS (R183 to R185): DONE with the page's results, or BAD_ARGUMENT. A
read of PART counts its own response slot (R181). The fields of every page in the order of its rule, each
by its type (R194): numbers most significant character first, an absent optional field as 0, a timer by its
remains, 0 for stopped and never 0 for a running one (R176, log 4); names by their codes (11.3, 11.4).
Where R194 gives a field no encoding
(the four characters of the directive word, the declared order of the counts, offer sent, the declined set
as one bit field, the link state as yes or no, the fault word, the widths of a stack entry) the layout is
the model's (log 15). -/
def Obligations.ReadsAnswer : Prop :=
  (∀ (s : State) (tag a b : Byte), s.takesRequests →
    ((23 < a.toNat ∨ 4 < b.toNat) →
      exec (.readLane tag a b) s = .next (s.answer 25 tag .badArgument)) ∧
    (∀ l : LaneIx, a.toNat = l.1 → b.toNat ≤ 4 →
      let x := s.floor.lane l
      exec (.readLane tag a b) s = .next (s.answer 25 tag .done
        (if b = 0 then lanePage0 x
         else if b = 1 then num1c x.reasons.length ++ num1c x.help.code
           ++ (x.reasons.take 5).flatMap (reasonEntry x)
         else if b = 2 then (x.reasons.drop 5).flatMap (reasonEntry x)
         else if b = 3 then (x.stack.take 4).flatMap itemEntry
         else (x.stack.drop 4).flatMap itemEntry))) ∧
    ((2 ≤ a.toNat ∨ (a = 0 ∧ 47 < b.toNat) ∨ (a = 1 ∧ 191 < b.toNat)) →
      exec (.readQueue tag a b) s = .next (s.answer 26 tag .badArgument)) ∧
    (a = 0 → b.toNat ≤ 47 →
      exec (.readQueue tag a b) s = .next (s.answer 26 tag .done
        (num1c s.floor.desk.queue.length
          ++ ((s.floor.desk.queue.drop b.toNat).take 3).flatMap (recordEntry s.floor.desk)))) ∧
    (a = 1 → b.toNat ≤ 191 →
      exec (.readQueue tag a b) s = .next (s.answer 26 tag .done
        (num1c (s.floor.unqueued s.params).length
          ++ (((s.floor.unqueued s.params).drop b.toNat).take 8).flatMap unqueuedEntry))) ∧
    (4 < a.toNat → exec (.readStatus tag a) s = .next (s.answer 27 tag .badArgument)) ∧
    (a = 4 → exec (.readStatus tag a) s = .next (s.answer 27 tag .done (partPage s 1))) ∧
    ∀ n : LineIx, a.toNat = n.1 →
      exec (.readStatus tag a) s = .next (s.answer 27 tag .done (linePage s n))) ∧
  -- field types
  (∀ n : Nat, num1c n = [BitVec.ofNat 8 n] ∧ num2c n = [BitVec.ofNat 8 (n / 256), BitVec.ofNat 8 n] ∧
    num3c n = [BitVec.ofNat 8 (n / 65536), BitVec.ofNat 8 (n / 256), BitVec.ofNat 8 n]) ∧
  (∀ v : Stamp, chars4 v = num2c (v.toNat / 65536) ++ num2c v.toNat) ∧
  (∀ v : Article, chars6 v =
    num2c (v.toNat / 4294967296) ++ num2c (v.toNat / 65536) ++ num2c v.toNat) ∧
  (flagc true = [1] ∧ flagc false = [0] ∧ timerc none = [0, 0] ∧
    ∀ n, timerc (some n) = num2c (if n = 0 then 1 else n)) ∧
  (detailc none = [0, 0, 0, 0, 0, 0, 0] ∧
    (∀ d, detailc (some (.grams d)) = 1 :: chars6 (BitVec.ofInt 48 d)) ∧
    (∀ a, detailc (some (.article a)) = 1 :: chars6 a) ∧
    (∀ n, detailc (some (.cents n)) = 1 :: chars6 (BitVec.ofNat 48 n)) ∧
    (∀ n, detailc (some (.lost n)) = 1 :: chars6 (BitVec.ofNat 48 n)) ∧
    detailc (some (.limit .itemCount)) = [1, 0, 0, 0, 0, 0, 1] ∧
    detailc (some (.limit .value)) = [1, 0, 0, 0, 0, 0, 2] ∧
    detailc (some (.limit .weight)) = [1, 0, 0, 0, 0, 0, 3]) ∧
  -- codes (11.2 to 11.4)
  ([Reason.help, .weight, .age, .void, .watch, .highValue, .lostFrame, .link, .idle, .payFail].map
      (·.ix.1) = [0, 1, 2, 3, 4, 5, 6, 7, 8, 9] ∧
    [LaneState.closed, .ready, .scanning, .paying, .closingScan, .closingPay].map (·.code) =
      [0, 1, 2, 3, 4, 5] ∧
    [Cause.noneYet, .offer, .withdrawn, .recalled, .resolved, .laneEnded, .loggedOff, .claimed].map
      (·.code) = [0, 1, 2, 3, 4, 5, 6, 7] ∧
    [Message.none, .laneClosed, .badgeRefused, .badgeRequired, .levelTooLow, .attendantPresent,
      .removeItem, .placeItem, .waitAssist, .callNoted].map (·.code) = [0, 1, 2, 3, 4, 5, 6, 7, 8, 9] ∧
    [RefusalMsg.badgeRefused, .badgeRequired, .levelTooLow].map (·.message.code) = [2, 3, 4] ∧
    [Answer.done, .badArgument, .badState, .notFound, .taken, .full, .bankPinned, .loadConflict,
      .countMismatch, .noTables, .presenceRequired].map (·.code) = [0, 1, 2, 3, 4, 5, 6, 7, 8, 9, 10] ∧
    [BankState.empty, .loading, .invalid, .ready, .current].map (·.code) = [0, 1, 2, 3, 4] ∧
    [ChanState.disabled, .pending, .opened].map (·.code) = [0, 1, 2] ∧
    [LineState.active, .quiet, .waking].map (·.code) = [0, 1, 2] ∧
    [LinkState.online, .silent, .offline].map (·.code) = [0, 1, 2] ∧
    [ResetCause.power, .pin, .request].map (·.code) = [0, 1, 2] ∧
    [Lamp.off, .green, .amber, .red].map (·.code) = [0, 1, 2, 3] ∧
    [Edge.rise, .fall, .both].map (·.code) = [0, 1, 2] ∧ [Level.one, .two].map (·.code) = [1, 2] ∧
    ∀ h : HelpSources, h.code =
      (if h.screen then 1 else 0) + (if h.button then 2 else 0) + (if h.limit then 4 else 0)) ∧
  -- READ LANE
  (∀ x : Lane, lanePage0 x =
    num1c x.state.code ++ num2c x.txn.toNat
      ++ (match x.pinned with
        | none => [0, 0]
        | some .a => [1, 0]
        | some .b => [1, 1])
      ++ num2c x.totals.itemCount ++ num3c x.totals.value ++ num3c x.totals.expected
      ++ num2c x.totals.tolerance
      ++ (match x.totals.bag with
        | none => [0, 0, 0, 0]
        | some m => 1 :: num3c m)
      ++ num2c x.totals.ageCount ++ flagc x.totals.ageApproved ++ flagc x.totals.highRaised
      ++ num1c x.stack.length ++ deferredc x.deferred
      ++ (match x.session with
        | none => [0, 0, 0, 0, 0, 0, 0, 0]
        | some se => 1 :: num2c se.badge.toNat ++ num1c se.level.code ++ chars4 se.opened)
      ++ (match x.refusal with
        | none => [0]
        | some m => num1c m.message.code)
      ++ (num1c x.word.lamp.code ++ flagc x.word.pause ++ num1c x.word.message.code
        ++ num1c x.word.gen.toNat)
      ++ (match x.echo with
        | none => [8]
        | some g => num1c g.toNat)
      ++ (match x.lastDirect with
        | none => [8]
        | some g => num1c g.toNat)
      ++ timerc x.bagSettle ++ timerc x.inactivity ++ timerc x.presence ++ timerc x.refusalTimer
      ++ (match x.drop.lastSeq with
        | none => [0]
        | some q => num1c (8 + q.toNat))
      ++ flagc x.refusalMark ++ flagc x.call.enabled ++ num1c x.call.edge.code
      ++ (match x.call.level with
        | none => [2]
        | some v => flagc v)
      ++ flagc x.call.pending) ∧
  (∀ fs : List Frame, fs.length ≤ 6 → deferredc fs = num1c fs.length
    ++ fs.map (fun fr => BitVec.ofNat 8 (fr.body.kind.ix.1 + 1 + (if fr.gap then 128 else 0)))
    ++ List.replicate (6 - fs.length) 0) ∧
  (∀ (x : Lane) (r : Reason) (en : Raised), x.entry r = some en → reasonEntry x r =
    num1c r.ix.1 ++ chars4 en.stamp ++ flagc en.queued ++ detailc en.detail) ∧
  (∀ i : Item, itemEntry i = chars6 i.article ++ num2c i.group.toNat ++ num1c i.quantity
    ++ num3c i.lineValue ++ num3c i.weight ++ num2c i.tolerance ++ flagc i.age
    ++ (match i.source with
      | .scan => [1]
      | .weigh => [2])) ∧
  -- READ QUEUE
  (∀ (d : Desk) (k : SlotIx) (r : Record), recordEntry d (k, r) =
    num1c k.1 ++ num1c d.slots[k].issue.toNat ++ num1c r.lane.1 ++ num1c r.reason.ix.1
      ++ num1c r.base.1 ++ num1c r.current.1 ++ chars4 r.stamp
      ++ (match r.state with
        | .waiting => [0, 4, 0, 0, 4]
        | .offered c sent => [1] ++ num1c c.1 ++ [1] ++ flagc sent ++ [4]
        | .claimed c => [2, 4, 0, 0] ++ num1c c.1
        | .attending none => [3, 4, 0, 0, 4]
        | .attending (some c) => [3, 4, 0, 0] ++ num1c c.1)
      ++ num1c r.declined.toNat ++ flagc r.needsPresence ++ num1c (r.current.1 - r.base.1)
      ++ detailc r.detail ++ timerc r.escal ++ timerc r.offer ++ timerc r.claim) ∧
  (∀ u : Unqueued, unqueuedEntry u =
    num1c u.lane.1 ++ num1c u.reason.ix.1 ++ chars4 u.entry.stamp ++ num1c u.base.1) ∧
  -- READ STATUS
  (∀ (s : State) (own : Nat),
    let chan (c : Channel) : List Byte :=
      num1c c.state.code ++ num1c c.credit ++ num1c c.queue.length ++ num1c c.pass
    let bank (b : Bank) (pins : Nat) : List Byte := num1c b.state.code ++ num1c pins
      ++ num2c b.declGroups ++ num1c b.declWatch ++ num2c b.groups.length ++ num1c b.watch.length
    let pins (bk : BankId) : Nat := (allLanes.filter (fun l => (s.floor.lane l).pinned == some bk)).length
    let named (k : SlotIx) : List Byte :=
      [1] ++ num1c k.1 ++ num1c s.floor.desk.slots[k].issue.toNat
    let console (x : Console) : List Byte :=
      (match x.state with
        | .absent => [0, 0, 0, 0]
        | .free => [1, 0, 0, 0]
        | .offered k => [2] ++ named k
        | .busy k => [3] ++ named k) ++ flagc x.pending ++ num1c x.cause.code
    partPage s own = chars4 s.storeTime
      ++ (num1c s.mgmt.cause.code ++ flagc s.mgmt.conflictSeen ++ flagc s.mgmt.lostSeen)
      ++ flagc s.linkUp ++ num1c (s.mgmt.slots.length + own) ++ num1c s.floor.free.length
      ++ (chan s.floor.chans[0] ++ chan s.floor.chans[1] ++ chan s.floor.chans[2])
      ++ (bank s.tables.bankA (pins .a) ++ bank s.tables.bankB (pins .b))
      ++ (console (s.floor.desk.console 0) ++ console (s.floor.desk.console 1)
        ++ console (s.floor.desk.console 2) ++ console (s.floor.desk.console 3))
      ++ freeOrderc s.floor.desk.freeOrder
      ++ (chars3 s.tables.zones[0] ++ chars3 s.tables.zones[1] ++ chars3 s.tables.zones[2]
        ++ chars3 s.tables.zones[3])) ∧
  (∀ cs : List ConsoleIx, cs.length ≤ 4 → freeOrderc cs =
    cs.map (fun c => BitVec.ofNat 8 c.1) ++ List.replicate (4 - cs.length) 4) ∧
  ∀ (s : State) (n : LineIx),
    let x := s.line n
    let drop (d : DropIx) : List Byte :=
      let k := (s.floor.lane (laneOf n d)).drop
      num1c k.link.code ++ num1c k.misses ++ num1c k.quality ++ flagc k.trouble
        ++ (match k.lastSeq with
          | none => [0]
          | some q => num1c (8 + q.toNat))
    linePage s n = num1c x.state.code ++ flagc x.quietPending ++ num1c x.pos.1 ++ num1c x.round.1
      ++ flagc x.slot.isSome
      ++ (match x.attention with
        | .active d => num1c d.1
        | .inactive => [6]
        | .due => [7])
      ++ timerc x.settle ++ drop 0 ++ drop 1 ++ drop 2 ++ drop 3 ++ drop 4 ++ drop 5

/-- READ COUNTERS (R186): the values of every counter of the group in the order of its table, two characters
each, and with the clear option the counters then 0. That the counters of the channels stand channel by
channel is the model's choice (log 15). -/
def Obligations.CountersReadAndCleared : Prop :=
  ∀ (s : State) (tag group clear : Byte), s.takesRequests →
    ((28 < group.toNat ∨ 1 < clear.toNat) →
      exec (.readCounters tag group clear) s = .next (s.answer 28 tag .badArgument)) ∧
    (∀ l : LaneIx, group.toNat = l.1 →
      let x := (s.floor.lane l).counters
      let values := [x.outOfPlace, x.freed, x.duplicates, x.gaps, x.malformed, x.refused].flatMap num2c
      (clear = 0 → exec (.readCounters tag group clear) s =
        .next (s.answer 28 tag .done values)) ∧
      (clear = 1 → exec (.readCounters tag group clear) s = .next (State.answer
        { s with floor := s.floor.modLane l (fun x =>
            { x with counters := { outOfPlace := 0, freed := 0, duplicates := 0, gaps := 0
                                   malformed := 0, refused := 0 } }) } 28 tag .done values))) ∧
    (∀ n : LineIx, group.toNat = 24 + n.1 →
      let x := (s.line n).counters
      let values := [x.misses, x.damaged, x.noisy, x.breaks, x.ignoredBreaks, x.strays, x.standbyPolls,
        x.standbyFrames].flatMap num2c
      (clear = 0 → exec (.readCounters tag group clear) s =
        .next (s.answer 28 tag .done values)) ∧
      (clear = 1 → exec (.readCounters tag group clear) s = .next (State.answer
        { s with lines := upd s.lines n { s.line n with
            counters := { misses := 0, damaged := 0, noisy := 0, breaks := 0, ignoredBreaks := 0
                          strays := 0, standbyPolls := 0, standbyFrames := 0 } } }
        28 tag .done values))) ∧
    (group.toNat = 28 →
      let c0 := s.floor.chans[0]
      let c1 := s.floor.chans[1]
      let c2 := s.floor.chans[2]
      let desk := s.floor.desk
      let attended := s.floor.presence
      let values := [s.mgmt.lost, s.link.skipped, s.link.badLength, s.link.truncated, s.link.badCheck,
        s.link.wrongChannel, c0.sent, c0.discarded, c1.sent, c1.discarded, c2.sent, c2.discarded,
        s.poolEmpty, desk.unqueuedRaises, desk.offerExpiries, desk.claimRecalls, attended.badgeRefusals,
        attended.withoutSession, attended.overrideRefusals, attended.sessionExpiries].flatMap num2c
      (clear = 0 → exec (.readCounters tag group clear) s =
        .next (s.answer 28 tag .done values)) ∧
      (clear = 1 → exec (.readCounters tag group clear) s = .next (State.answer
        { s with
            mgmt := { s.mgmt with lost := 0 }
            link := { s.link with skipped := 0, badLength := 0, truncated := 0, badCheck := 0
                                  wrongChannel := 0 }
            poolEmpty := 0
            floor := { s.floor with
              chans := Vector.ofFn (fun c => { s.floor.chans[c] with sent := 0, discarded := 0 })
              desk := { s.floor.desk with unqueuedRaises := 0, offerExpiries := 0
                                          claimRecalls := 0 }
              presence := { badgeRefusals := 0, withoutSession := 0, overrideRefusals := 0
                            sessionExpiries := 0 } } } 28 tag .done values)))

/-- SET PARAM (R187): a parameter number 1 to 22 and a value in its range is set, and no other parameter
changes; else BAD_ARGUMENT. The mask bits above LANE are ignored (R194, log 29). -/
def Obligations.ParamsSet : Prop :=
  let read (p : Params) (n : Nat) : Nat :=
    match n with
    | 1 => p.baseTolerance | 2 => p.toleranceCap | 3 => p.highLimit | 4 => p.bagSettle
    | 5 => p.inactivity | 6 => p.presence | 7 => p.offer | 8 => p.claim | 9 => p.escal0
    | 10 => p.escal1 | 11 => p.escal2 | 22 => p.mask.toNat
    | n => if h : n - 12 < 10 then (p.base[n - 12]).1 else 0
  let range (n : Nat) : Nat × Nat :=
    match n with
    | 1 => (0, 500) | 2 => (0, 10000) | 3 => (0, 9999999) | 4 => (10, 600) | 5 => (100, 6000)
    | 6 => (100, 6000) | 7 => (20, 600) | 8 => (300, 9000) | 9 => (50, 6000) | 10 => (50, 6000)
    | 11 => (50, 6000) | 22 => (0, 16777215) | _ => (0, 3)
  ∀ (s : State) (tag param : Byte) (value : BitVec 24), s.takesRequests →
    let n := param.toNat
    let v := value.toNat
    ((n = 0 ∨ 22 < n ∨ v < (range n).1 ∨ (range n).2 < v) →
      exec (.setParam tag param value) s = .next (s.answer 29 tag .badArgument)) ∧
    (1 ≤ n → n ≤ 22 → (range n).1 ≤ v → v ≤ (range n).2 →
      ∃ p, exec (.setParam tag param value) s =
          .next (State.answer { s with params := p } 29 tag .done) ∧
        read p n = (if n = 22 then v % 8 else v) ∧
        ∀ m, 1 ≤ m → m ≤ 22 → m ≠ n → read p m = read s.params m)

/-- SET TIME, PART RESET and INPUT SET (R173, R191, R136). -/
def Obligations.SettingsTaken : Prop :=
  ∀ (s : State) (tag lane enable edge : Byte) (time : Stamp), s.takesRequests →
    exec (.setTime tag time) s =
      .next (State.answer { s with storeTime := time } 30 tag .done) ∧
    exec (.partReset tag) s =
      .next (State.answer { s with mgmt := { s.mgmt with resetPending := true } } 31 tag .done) ∧
    ((23 < lane.toNat ∨ 1 < enable.toNat ∨ 2 < edge.toNat) →
      exec (.inputSet tag lane enable edge) s = .next (s.answer 16 tag .badArgument)) ∧
    ∀ (l : LaneIx) (on : Bool) (ed : Edge), lane.toNat = l.1 → enable.toNat = on.toNat →
      edge.toNat = ed.code →
      exec (.inputSet tag lane enable edge) s = .next (State.answer
        { s with floor := s.floor.modLane l (fun x =>
            { x with call := { x.call with enabled := on, edge := ed } }) } 16 tag .done)

/-! ## The transmitter -/

/-- The completion of a message makes the transmitter idle; of a response, it frees its slot; of a lane
event, it takes the event from its queue, counts it, returns its buffer and runs the deferred passes
(R158, R167, R181). A completion of what is not being sent changes nothing (log 2). A deferred pass, after
the insertions owed (R54), takes frames from the head of the lane's list and processes each as deferred,
until the list is empty or its head is not processable: forbidden by the lane's reasons, or without room
(R41, R42). The sweep visits the 24 lanes from the release pointer on, with a pass at each whose list is
not empty, and the pointer moves to the lane after the first whose pass took a frame (R43). -/
def Obligations.TransmissionsComplete : Prop :=
  (∀ s : State, s.held = none →
    (((∃ c, s.sending = some (.snapshot c)) ∨ s.sending = some .partNotice ∨
        (∃ l, s.sending = some (.lineNotice l)) ∨ (∃ l, s.sending = some (.laneNotice l))) →
      exec .messageComplete s =
        .next (State.finish { s with link := { s.link with tx := none } })) ∧
    (s.sending = some .response → s.mgmt.resetPending = false →
      exec .responseComplete s = .next (State.finish
        { s with link := { s.link with tx := none }
                 mgmt := { s.mgmt with slots := s.mgmt.slots.drop 1 } })) ∧
    (∀ c ev rest, s.sending = some (.laneEvent c) → s.floor.chans[c].queue = ev :: rest →
      exec .laneEventComplete s = .next (State.finish
        { s with
            link := { s.link with tx := none }
            floor := Floor.sweep s.env
              { s.floor.modChan c (fun ch =>
                  { ch with queue := rest, sent := min (ch.sent + 1) 65535 }) with
                free := s.floor.free ++ [ev.frame.buf] } })) ∧
    ((s.sending = none ∨ s.sending = some .response ∨ ∃ c, s.sending = some (.laneEvent c)) →
      exec .messageComplete s = .next s) ∧
    (s.sending ≠ some .response → exec .responseComplete s = .next s) ∧
    ((∀ c, s.sending ≠ some (.laneEvent c)) → exec .laneEventComplete s = .next s)) ∧
  (∀ (e : Env) (l : LaneIx) (f : Floor),
    let processable (f : Floor) (fr : Frame) : Prop :=
      (f.lane fr.lane).forbids fr.body.kind = false ∧ f.room e fr.body.kind = true
    let g := f.insertions e.params
    let t := f.pass e l
    t = g.passUpTo e l (g.lane l).deferred.length ∧ f.passUpTo e l 0 = f ∧
    ((t.lane l).deferred = [] ∨
      ∃ fr rest, (t.lane l).deferred = fr :: rest ∧ ¬processable t fr) ∧
    ∀ n, ((f.lane l).deferred = [] → f.passUpTo e l (n + 1) = f) ∧
      ∀ fr rest, (f.lane l).deferred = fr :: rest →
        (¬processable f fr → f.passUpTo e l (n + 1) = f) ∧
        (processable f fr → f.passUpTo e l (n + 1) = Floor.passUpTo e l n
          ((f.modLane l (fun x => { x with deferred := rest })).process e fr true).1)) ∧
  ∀ (e : Env) (f : Floor), ∃ stage : Nat → Floor,
    let at_ (i : LaneIx) : LaneIx := f.releasePtr + i
    let took (i : LaneIx) : Prop :=
      ((stage (i.1 + 1)).lane (at_ i)).deferred.length < ((stage i.1).lane (at_ i)).deferred.length
    stage 0 = f ∧
    (∀ i : LaneIx,
      (((stage i.1).lane (at_ i)).deferred = [] → stage (i.1 + 1) = stage i.1) ∧
      (((stage i.1).lane (at_ i)).deferred ≠ [] → stage (i.1 + 1) = (stage i.1).pass e (at_ i))) ∧
    (∀ i : LaneIx, took i → (∀ j, j < i → ¬took j) →
      f.sweep e = { stage 24 with releasePtr := at_ i + 1 }) ∧
    ((∀ i, ¬took i) → f.sweep e = stage 24)

/-- The arbiter (R165, R166, R181, R189): where the link is UP and the transmitter idle it takes the
oldest response, else a pending snapshot, else an enabled PART, LINE or LANE notice, else the head event of
a traffic channel. Consoles, drops and lanes are taken in rotation after the one last taken. The channel is
eligible, is one at pass count 8 if there is one, and is the highest such; its credit falls by 1, and the
eligible channels passed over count it. The message is filled as it is taken (R60, R188); a snapshot taken
sends the console's unsent offer, whose offer timer starts and whose saved values go (R63). The tag of a
lane event is a free value (log 14). The fields of a snapshot, a LINE and a LANE notice and a lane event
stand in the order of 11.2, and a message carries its start character, length and check (R194); that the
transaction number of a lane event is an optional field, and that the directive word of a LANE notice is the
word character of a DIRECT, are the model's (log 15). -/
def Obligations.ArbiterChooses : Prop :=
  (∀ s : State, (s.linkUp = false ∨ s.link.tx.isSome = true ∨ s.held.isSome = true) →
    s.arbiter = s) ∧
  -- the contents of 11.2
  (∀ (d : Desk) (c : ConsoleIx),
    let x := d.console c
    let record (k : SlotIx) : List Byte :=
      match d.recAt k with
      | none => List.replicate 12 0
      | some r => [1] ++ num1c k.1 ++ num1c d.slots[k].issue.toNat ++ num1c r.lane.1
          ++ num1c r.reason.ix.1 ++ detailc r.detail
    snapshotContent d c = num1c c.1
      ++ (match x.state with
        | .absent => [0] ++ List.replicate 12 0
        | .free => [1] ++ List.replicate 12 0
        | .offered k => [2] ++ record k
        | .busy k => [3] ++ record k)
      ++ num1c x.cause.code) ∧
  (∀ (s : State) (n : LineIx) (d : DropIx),
    let k := (s.floor.lane (laneOf n d)).drop
    lineNotice s (laneOf n d) = num1c (6 * n.1 + d.1) ++ num1c (s.line n).state.code
      ++ num1c k.link.code ++ num1c k.misses ++ num1c k.quality ++ flagc k.trouble
      ++ (match k.lastSeq with
        | none => [0]
        | some q => num1c (8 + q.toNat))) ∧
  (∀ (f : Floor) (l : LaneIx),
    let x := f.lane l
    let reason (r : Reason) : List Byte :=
      match x.entry r with
      | none => []
      | some en => num1c r.ix.1 ++ flagc en.queued ++ detailc en.detail
    laneNotice f l = num1c l.1 ++ num1c x.state.code ++ num2c x.txn.toNat ++ num1c x.help.code
      ++ (match x.session with
        | none => [0, 0, 0, 0, 0, 0]
        | some se => [1] ++ num2c se.badge.toNat ++ num1c se.level.code ++ timerc x.presence)
      ++ (match x.refusal with
        | none => [0]
        | some m => num1c m.message.code)
      ++ num1c x.deferred.length ++ [wordChar x.word] ++ num1c x.word.message.code
      ++ num1c x.reasons.length ++ x.reasons.flatMap reason) ∧
  (∀ ev : LaneEvent, eventContent ev = num1c ev.frame.lane.1
    ++ (match ev.txn with
      | none => [0, 0, 0]
      | some t => [1] ++ num2c t.toNat)
    ++ chars4 ev.stamp ++ num2c ev.annos.toNat ++ num2c ev.raised.toNat ++ num2c ev.unresolved.toNat
    ++ num1c ev.frame.body.content.length ++ ev.frame.body.content) ∧
  (∀ m : TxMessage,
    let body : List Byte := [m.channel ++ m.kind, BitVec.ofNat 8 m.content.length, m.tag] ++ m.content
    m.chars = [165] ++ body ++ num2c (crc16 body).toNat) ∧
  (crc16 [] = 65535 ∧ ∀ (bs : List Byte) (b : Byte), crc16 (bs ++ [b]) =
    [7, 6, 5, 4, 3, 2, 1, 0].foldl (fun (r : BitVec 16) i =>
      (r <<< 1) ^^^ (if r.msb != b.getLsbD i then 0x1021 else 0)) (crc16 bs)) ∧
  -- the choice
  ∀ s : State, s.linkUp = true → s.link.tx = none → s.held = none →
    let t := s.arbiter
    let sent := t.sending
    let takes (what : TxWhat) (kind : BitVec 6) (content : List Byte) : Prop := t.link.tx =
      some { what := what, channel := 0, kind := kind, tag := 0, content := content }
    let snaps := ∃ c, (s.floor.desk.console c).pending = true
    let part := s.notices.part = true ∧ s.params.mask.getLsbD 0 = true
    let line := s.notices.line ≠ 0 ∧ s.params.mask.getLsbD 1 = true
    let lane := s.floor.laneFlags ≠ 0 ∧ s.params.mask.getLsbD 2 = true
    let eligible (c : ChanIx) := s.floor.chans[c].state = .opened ∧ 0 < s.floor.chans[c].credit ∧
      s.floor.chans[c].queue ≠ []
    let full (c : ChanIx) := eligible c ∧ s.floor.chans[c].pass = 8
    (∀ r rest, s.mgmt.slots = r :: rest → sent = some .response ∧ t.link.tx =
      some { what := .response, channel := 0, kind := 32, tag := r.tag
             content := [r.kind.setWidth 8, BitVec.ofNat 8 r.outcome.code] ++ r.results }) ∧
    (s.mgmt.slots = [] → snaps →
      ∃ c, sent = some (.snapshot c) ∧ (s.floor.desk.console c).pending = true ∧
        (t.floor.desk.console c).pending = false ∧ t.notices.consolePtr = c ∧
        (∀ o, (s.floor.desk.console o).pending = true →
          (c - (s.notices.consolePtr + 1)).1 ≤ (o - (s.notices.consolePtr + 1)).1) ∧
        takes (.snapshot c) 33 (snapshotContent s.floor.desk c) ∧
        (∀ o, o ≠ c → t.floor.desk.console o = s.floor.desk.console o) ∧
        (∀ k r, (s.floor.desk.console c).state = .offered k → s.floor.desk.recAt k = some r →
          r.state = .offered c false →
          t.floor.desk.recAt k =
            some { r with state := .offered c true, offer := some s.params.offer } ∧
          t.floor.desk.console c =
            { s.floor.desk.console c with pending := false, saved := none } ∧
          ∀ j, j ≠ k → t.floor.desk.recAt j = s.floor.desk.recAt j) ∧
        ((∀ k r, (s.floor.desk.console c).state = .offered k → s.floor.desk.recAt k = some r →
            ∀ o, r.state ≠ .offered o false) →
          t.floor.desk.slots = s.floor.desk.slots ∧
          t.floor.desk.console c = { s.floor.desk.console c with pending := false })) ∧
    (s.mgmt.slots = [] → ¬snaps → part →
      sent = some .partNotice ∧ t.notices.part = false ∧ takes .partNotice 34 (partPage s 0)) ∧
    (s.mgmt.slots = [] → ¬snaps → ¬part → line →
      ∃ l, sent = some (.lineNotice l) ∧ hasLane s.notices.line l = true ∧
        (∀ o, hasLane t.notices.line o = (hasLane s.notices.line o && o != l)) ∧
        t.notices.linePtr = l ∧ takes (.lineNotice l) 35 (lineNotice s l) ∧
        ∀ o, hasLane s.notices.line o = true →
          (l - (s.notices.linePtr + 1)).1 ≤ (o - (s.notices.linePtr + 1)).1) ∧
    (s.mgmt.slots = [] → ¬snaps → ¬part → ¬line → lane →
      ∃ l, sent = some (.laneNotice l) ∧ hasLane s.floor.laneFlags l = true ∧
        (∀ o, hasLane t.floor.laneFlags o = (hasLane s.floor.laneFlags o && o != l)) ∧
        t.notices.lanePtr = l ∧ takes (.laneNotice l) 36 (laneNotice s.floor l) ∧
        ∀ o, hasLane s.floor.laneFlags o = true →
          (l - (s.notices.lanePtr + 1)).1 ≤ (o - (s.notices.lanePtr + 1)).1) ∧
    (s.mgmt.slots = [] → ¬snaps → ¬part → ¬line → ¬lane → (∀ c, ¬eligible c) → t = s) ∧
    (s.mgmt.slots = [] → ¬snaps → ¬part → ¬line → ¬lane → (∃ c, eligible c) →
      ∃ c, sent = some (.laneEvent c) ∧ eligible c ∧
        ((∃ o, full o) → full c ∧ ∀ o, full o → o ≤ c) ∧
        ((∀ o, ¬full o) → ∀ o, eligible o → o ≤ c) ∧
        (∀ ev rest, s.floor.chans[c].queue = ev :: rest → ∃ tag, t.link.tx =
          some { what := .laneEvent c, channel := BitVec.ofNat 2 (c.1 + 1)
                 kind := BitVec.ofNat 6 (ev.frame.body.kind.ix.1 + 1), tag := tag
                 content := eventContent ev }) ∧
        t.floor.chans[c] = { s.floor.chans[c] with
          credit := s.floor.chans[c].credit - 1, pass := 0 } ∧
        (∀ o, o ≠ c → eligible o → t.floor.chans[o] =
          { s.floor.chans[o] with pass := min (s.floor.chans[o].pass + 1) 8 }) ∧
        ∀ o, o ≠ c → ¬eligible o → t.floor.chans[o] = s.floor.chans[o])

/-! ## Timers -/

/-- The expiries of a lane's timers, taken where the count has reached 0 (R174): bag settle (R25),
inactivity (R27), presence (R84, R87, R98) and refusal message (R47). One that is not due changes nothing
(log 3). -/
def Obligations.LaneTimersExpire : Prop :=
  ∀ (s : State) (l : LaneIx), s.held = none →
    let x := s.floor.lane l
    let limit := s.params.baseTolerance + x.totals.tolerance
    let settled := (s.floor.modLane l (fun x => { x with bagSettle := none })).touch l
    let weight (d : Int) := exec (.bagSettleExpiry l) s = .next (State.finish
      { s with floor := settled.raise s.env l .weight (some (.grams d)) none })
    (x.bagSettle = some 0 →
      (x.totals.bag = none → weight (-(x.totals.expected : Int))) ∧
      (∀ m : Nat, x.totals.bag = some m → limit < ((m : Int) - x.totals.expected).natAbs →
        weight ((m : Int) - x.totals.expected)) ∧
      (∀ m : Nat, x.totals.bag = some m → ((m : Int) - x.totals.expected).natAbs ≤ limit →
        exec (.bagSettleExpiry l) s = .next (State.finish { s with floor := settled }))) ∧
    (x.inactivity = some 0 →
      let stopped := s.floor.modLane l (fun x => { x with inactivity := none })
      exec (.inactivityExpiry l) s = .next (State.finish
        { s with floor := stopped.raise s.env l .idle none none })) ∧
    (x.presence = some 0 →
      let closed := (s.floor.modLane l (fun x => { x with presence := none })).closeSession s.params l
      exec (.presenceExpiry l) s = .next (State.finish
        { s with floor := { closed with presence := { closed.presence with
            sessionExpiries := min (closed.presence.sessionExpiries + 1) 65535 } } })) ∧
    (x.refusalTimer = some 0 → exec (.refusalMessageExpiry l) s = .next (State.finish
      { s with floor := (s.floor.modLane l (fun x =>
          { x with refusal := none, refusalTimer := none })).touch l })) ∧
    (x.bagSettle ≠ some 0 → exec (.bagSettleExpiry l) s = .next s) ∧
    (x.inactivity ≠ some 0 → exec (.inactivityExpiry l) s = .next s) ∧
    (x.presence ≠ some 0 → exec (.presenceExpiry l) s = .next s) ∧
    (x.refusalTimer ≠ some 0 → exec (.refusalMessageExpiry l) s = .next s)

/-- The expiries of a record's timers, taken where the count has reached 0: escalation (R57, R175), offer
(R65) and claim (R72). One that is not due changes nothing (log 3). -/
def Obligations.RecordTimersExpire : Prop :=
  ∀ (s : State) (k : SlotIx), s.held = none →
    let d := s.floor.desk
    let put (d' : Desk) : State := State.finish { s with floor := { s.floor with desk := d' } }
    (∀ r, d.recAt k = some r → r.escal = some 0 →
      (r.current = 3 → exec (.escalationExpiry k) s =
        .next (put (d.modRec k (fun r => { r with escal := none })))) ∧
      (r.current ≠ 3 → exec (.escalationExpiry k) s = .next (put (d.modRec k (fun r =>
        { r with current := r.current + 1
                 escal := match r.state with
                   | .waiting | .offered _ _ => escalStart s.params (r.current + 1)
                   | .claimed _ | .attending _ => none }))))) ∧
    (∀ r c sent, d.recAt k = some r → r.offer = some 0 → r.state = .offered c sent →
      let d1 := { d with offerExpiries := min (d.offerExpiries + 1) 65535 }.modRec k (fun r =>
        { r with state := .waiting, offer := none, declined := addConsole r.declined c })
      let d2 := d1.checkExhausted s.params s.tables.zones true k
      exec (.offerExpiry k) s = .next (put
        { d2.modConsole c (fun x =>
            { x with state := .free, pending := true, cause := .withdrawn }) with
          freeOrder := d2.freeOrder ++ [c], dispatchDue := true })) ∧
    (∀ r c, d.recAt k = some r → r.claim = some 0 → r.state = .claimed c →
      let d1 := { d with claimRecalls := min (d.claimRecalls + 1) 65535 }.modRec k (fun r =>
        { r with state := .waiting, claim := none, offer := none
                 current := if r.current = 3 then 3 else r.current + 1
                 escal := if r.current = 3 then none else escalStart s.params (r.current + 1) })
      exec (.claimExpiry k) s = .next (put
        { d1.modConsole c (fun x =>
            { x with state := .free, pending := true, cause := .recalled }) with
          freeOrder := d.freeOrder ++ [c], dispatchDue := true })) ∧
    ((∀ r, d.recAt k = some r → r.escal ≠ some 0) → exec (.escalationExpiry k) s = .next s) ∧
    ((∀ r, d.recAt k = some r → r.offer ≠ some 0) → exec (.offerExpiry k) s = .next s) ∧
    ((∀ r, d.recAt k = some r → r.claim ≠ some 0) → exec (.claimExpiry k) s = .next s)

/-! ## Lane lines -/

/-- The phases of a turn (R125) and the events of a line outside its answers: POLL_END opens the answer
window, ANSWER_START begins reception; MISS in the window, DAMAGED_ANSWER and ANSWER_TRUNCATED in reception
end the turn (R126, R127, R129). In another phase they change nothing (log 2). A turn that ends settles its
event, and the line goes on (R127, log 6): to QUIET where that is pending (R133); with its attention round,
due or active, to the first drop from its place on that is not OFFLINE (R131, log 18); else with the
rotation, unless it waits in an idle interval: the drop at the position is due where it is not OFFLINE or
the round is 0, the position advances past it, the round after drop 5, and a whole round without a due drop
begins the idle interval (R122). -/
def Obligations.TurnPhases : Prop :=
  (∀ (s : State) (n : LineIx), s.held = none →
    let phase (p : Phase) : Prop := ∃ u, (s.line n).turn = some u ∧ u.phase = p
    (∀ u, (s.line n).turn = some u →
      let go (p : Phase) : State :=
        { s with lines := upd s.lines n { s.line n with turn := some { u with phase := p } } }
      (u.phase = .sending → exec (.pollEnd n) s = .next (go .window)) ∧
      (u.phase = .window → exec (.answerStart n) s = .next (go .receiving) ∧
        exec (.miss n) s = .next ((s.judgeDrop n u.drop .miss).endTurn n)) ∧
      (u.phase = .receiving →
        exec (.damagedAnswer n) s = .next ((s.judgeDrop n u.drop .damaged).endTurn n) ∧
        exec (.answerTruncated n) s = .next ((s.judgeDrop n u.drop .damaged).endTurn n))) ∧
    (¬phase .sending → exec (.pollEnd n) s = .next s) ∧
    (¬phase .window → exec (.answerStart n) s = .next s ∧ exec (.miss n) s = .next s) ∧
    (¬phase .receiving → exec (.damagedAnswer n) s = .next s ∧
      exec (.answerTruncated n) s = .next s ∧ ∀ cs, exec (.goodAnswer n cs) s = .next s)) ∧
  ∀ (s : State) (n : LineIx),
    let x := s.line n
    let put (y : Line) : State := { s with lines := upd s.lines n y }
    let offline (d : DropIx) : Prop := (s.floor.lane (laneOf n d)).drop.link = .offline
    let resume (t : State) : State := if x.idleWait then t else t.rotate n rotationSpan
    s.endTurn n = ((put { x with turn := none }).settle.nextTurn n).arbiter ∧
    (x.quietPending = true → s.nextTurn n =
      { s with
          floor := { s.floor with free := s.floor.free ++ x.slot.toList }
          lines := upd s.lines n
            { x with state := .quiet, quietPending := false, slot := none, turn := none
                     attention := .inactive, idleWait := false } }) ∧
    (x.quietPending = false → x.attention = .inactive → s.nextTurn n = resume s) ∧
    (∀ from_ : DropIx, x.quietPending = false →
      (x.attention = .due ∧ from_ = 0 ∨ x.attention = .active from_) →
      (∀ d, from_ ≤ d → ¬offline d → (∀ o, from_ ≤ o → o < d → offline o) →
        s.nextTurn n = (put { x with attention := if d = 5 then .inactive else .active (d + 1)
                                     idleWait := false }).startTurn n d) ∧
      ((∀ d, from_ ≤ d → offline d) → s.nextTurn n = resume (put { x with attention := .inactive }))) ∧
    let due : Prop := ¬offline x.pos ∨ x.round = 0
    let advanced (served : Bool) : Line :=
      if x.pos = 5 then { x with pos := 0, round := x.round + 1, roundServed := false }
      else { x with pos := x.pos + 1, roundServed := served }
    (due → s.rotate n rotationSpan = (put (advanced true)).startTurn n x.pos) ∧
    (¬due → x.pos = 5 → x.roundServed = false →
      s.rotate n rotationSpan = put { advanced false with idleWait := true }) ∧
    (¬due → (x.pos ≠ 5 ∨ x.roundServed = true) →
      s.rotate n rotationSpan = (put (advanced x.roundServed)).rotate n rotationSpan)

/-- The end of a turn with an answer whose characters are given (R126 to R128): characters that make no good
answer end the turn as damaged, those that run out before the answer is complete among them (log 17); of a
good answer the drop is judged, the echo set, a frame handed to intake with the buffer of the slot or, in a
STANDBY turn, discarded and counted. Characters after the end of the answer, good or damaged, are strays
(R126, R132). That a deferred pass the drop's judgement starts comes before the frame, whose own resolutions
may start another, is the model's choice (log 33). -/
def Obligations.GoodAnswers : Prop :=
  ∀ (s : State) (n : LineIx) (cs : List RxChar) (u : Turn), s.held = none →
    (s.line n).turn = some u → u.phase = .receiving →
    let rest := (receiveAnswer u.drop cs).2
    let ends (t' : State) : Prop := exec (.goodAnswer n cs) s = .next (t'.endTurn n)
    let strays (x : Line) : LineCounters :=
      { x.counters with strays := min (x.counters.strays + rest.length) 65535 }
    ((receiveAnswer u.drop cs).1 = none →
      let t := s.judgeDrop n u.drop .damaged
      ends { t with lines := upd t.lines n { t.line n with counters := strays (t.line n) } }) ∧
    ∀ a : GoodAnswer, (receiveAnswer u.drop cs).1 = some a →
      let l := laneOf n u.drop
      let t := s.judgeDrop n u.drop (.good a.noisy)
      let f := t.floor.modLane l (fun x => { x with echo := some a.echo })
      let x := t.line n
      (a.frame = none → ends
        { t with floor := f, lines := upd t.lines n { x with counters := strays x } }) ∧
      (∀ raw b, a.frame = some raw → x.slot = some b → ends
        { t with floor := f.intake t.env l raw b
                 lines := upd t.lines n { x with slot := none, counters := strays x } }) ∧
      (∀ raw, a.frame = some raw → x.slot = none → ends
        { t with floor := f
                 lines := upd t.lines n { x with counters :=
                   { strays x with standbyFrames := min (x.counters.standbyFrames + 1) 65535 } } })

/-- BREAK, STRAY, IDLE_ROUND_END and WAKE_SETTLE_EXPIRY (R119, R122, R131, R132, R134). The
preparation of a line brings every drop that is not OFFLINE ONLINE, and sets the LINE notice flag of each
that was SILENT (R134, R188). -/
def Obligations.LineEvents : Prop :=
  ∀ (s : State) (n : LineIx), s.held = none →
    let x := s.line n
    let put (y : Line) : State := { s with lines := upd s.lines n y }
    let breaks := { x.counters with breaks := min (x.counters.breaks + 1) 65535 }
    let ignored := { x.counters with ignoredBreaks := min (x.counters.ignoredBreaks + 1) 65535 }
    let broken := put (if x.attention = .inactive
      then { x with attention := .due, quietPending := false, counters := breaks }
      else { x with quietPending := false, counters := ignored })
    (x.state = .quiet → exec (.lineBreak n) s =
      .next (put { x with state := .waking, settle := some 2, counters := breaks })) ∧
    (x.state = .waking → exec (.lineBreak n) s = .next s) ∧
    (x.state = .active → x.turn = none →
      exec (.lineBreak n) s = .next ((broken.nextTurn n).arbiter)) ∧
    (∀ u, x.state = .active → x.turn = some u →
      (u.phase = .sending → exec (.lineBreak n) s = .next s) ∧
      (u.phase ≠ .sending → exec (.lineBreak n) s =
        .next ((broken.judgeDrop n u.drop .damaged).endTurn n))) ∧
    (∀ c : RxChar,
      let expected := ∃ u, x.turn = some u ∧ u.phase ≠ .sending
      (¬expected → rxFalseStart c = false → exec (.stray n c) s = .next (put
        { x with counters := { x.counters with strays := min (x.counters.strays + 1) 65535 } })) ∧
      (expected ∨ rxFalseStart c = true → exec (.stray n c) s = .next s)) ∧
    (x.idleWait = true → exec (.idleRoundEnd n) s =
      .next (((put { x with idleWait := false }).nextTurn n).arbiter)) ∧
    (x.idleWait = false → exec (.idleRoundEnd n) s = .next s) ∧
    (x.settle = some 0 → exec (.wakeSettleExpiry n) s =
      .next ((((s.prepareLine n).modLine n (fun y =>
        { y with state := .active, settle := none, pos := 0, round := 0, roundServed := false
                 idleWait := false })).settle.nextTurn n).arbiter)) ∧
    (x.settle ≠ some 0 → exec (.wakeSettleExpiry n) s = .next s) ∧
    let t := s.prepareLine n
    t = { s with floor := { s.floor with lanes := t.floor.lanes }
                 notices := { s.notices with line := t.notices.line } } ∧
    ∀ l : LaneIx,
      let y := s.floor.lane l
      (hasLane t.notices.line l = true ↔
        hasLane s.notices.line l = true ∨ (lineOf l = n ∧ y.drop.link = .silent)) ∧
      t.floor.lane l =
        if lineOf l = n then
          { y with
              drop := if y.drop.link = .offline then { y.drop with lastSeq := none }
                else { y.drop with link := .online, misses := 0, lastSeq := none }
              echo := none, lastDirect := none }
        else y

/-- The start of a turn (R123 to R125, R153): the slot's buffer or a claim from the head of the free list,
a DIRECT where the echo is not the lane's generation, and a POLL with the acknowledgement and the STANDBY
flag. The characters of both as 11.1 has them, each with its start bit, data, marker, odd parity and stop
bit (R118), and with the check of R193. That the characters of both are fixed at the start of the turn is
the model's reading (log 16, DEDUCED). -/
def Obligations.TurnBegins : Prop :=
  (∀ (d : DropIx) (w : DirectiveWord),
    let address : Byte := (24 : BitVec 5) ++ BitVec.ofNat 3 d.1
    let message : Byte := BitVec.ofNat 8 w.message.code
    wordChar w = (0 : BitVec 2) ++ w.gen ++ BitVec.ofBool w.pause ++ BitVec.ofNat 2 w.lamp.code ∧
    directChars d w = [lineChar address true, lineChar (wordChar w) false, lineChar message false,
      lineChar (crc8 [address, wordChar w, message]) false]) ∧
  (∀ (d : DropIx) (ack : Option Seq) (standby : Bool),
    let address : Byte := (25 : BitVec 5) ++ BitVec.ofNat 3 d.1
    let control : Byte := (0 : BitVec 3) ++ BitVec.ofBool standby ++
      (match ack with
        | none => (8 : BitVec 4)
        | some q => (0 : BitVec 1) ++ q)
    pollChars d ack standby =
      [lineChar address true, lineChar control false, lineChar (crc8 [address, control]) false]) ∧
  (∀ (b : Byte) (marker : Bool),
    let c := lineChar b marker
    c.getLsbD 0 = false ∧ (∀ i, i < 8 → c.getLsbD (i + 1) = b.getLsbD i) ∧ c.getLsbD 9 = marker ∧
    ((List.range 10).filter (fun i => c.getLsbD (i + 1))).length % 2 = 1 ∧ c.getLsbD 11 = true) ∧
  (crc8 [] = 0 ∧ ∀ (bs : List Byte) (b : Byte), crc8 (bs ++ [b]) =
    [7, 6, 5, 4, 3, 2, 1, 0].foldl (fun (r : Byte) i =>
      (r <<< 1) ^^^ (if r.msb != b.getLsbD i then 0x31 else 0)) (crc8 bs)) ∧
  ∀ (s : State) (n : LineIx) (d : DropIx),
    let t := s.startTurn n d
    let l := laneOf n d
    let x := s.floor.lane l
    let stale := x.echo ≠ some x.word.gen
    let counters := { (s.line n).counters with
      standbyPolls := min ((s.line n).counters.standbyPolls + 1) 65535 }
    let turn (standby : Bool) : Turn :=
      { drop := d, phase := .sending, standby := standby
        direct := if stale then directChars d x.word else []
        poll := pollChars d x.drop.lastSeq standby }
    t.floor = { s.floor with lanes := t.floor.lanes, free := t.floor.free } ∧
    (∀ k : LaneIx, t.floor.lane k = { s.floor.lane k with
      lastDirect := if k = l ∧ stale then some x.word.gen else (s.floor.lane k).lastDirect }) ∧
    (∀ b, (s.line n).slot = some b →
      t.line n = { s.line n with turn := some (turn false) } ∧ t.floor.free = s.floor.free ∧
      t.poolEmpty = s.poolEmpty ∧ t.notices = s.notices) ∧
    (∀ b rest, (s.line n).slot = none → s.floor.free = b :: rest →
      t.line n = { s.line n with turn := some (turn false), slot := some b } ∧
      t.floor.free = rest ∧
      (rest ≠ [] → t.poolEmpty = s.poolEmpty ∧ t.notices = s.notices) ∧
      (rest = [] → t.poolEmpty = min (s.poolEmpty + 1) 65535 ∧
        t.notices = { s.notices with part := true })) ∧
    ((s.line n).slot = none → s.floor.free = [] →
      t.line n = { s.line n with turn := some (turn true), counters := counters } ∧
      t.floor.free = [] ∧ t.poolEmpty = s.poolEmpty ∧ t.notices = s.notices)

/-- The judgement of a drop at the end of a turn: miss count and link state by the outcome (R129), then the
quality, then trouble with hysteresis (R130); the line's counters (R135); the drop's LINE flag on a change
of link state (R121); LINK raised at a lane that is not CLOSED as trouble begins, and as it ends LOST_FRAME
raised in a transaction and then LINK resolved where it is raised, with its deferred pass. That this pass
runs here, before the frame of the same turn is handed to intake, is the model's choice (log 33). -/
def Obligations.DropJudged : Prop :=
  (∀ (s : State) (n : LineIx) (d : DropIx) (o : TurnEnd),
    let l := laneOf n d
    let old := (s.floor.lane l).drop
    let new := old.afterTurn o
    let f := (s.floor.modLane l (fun x => { x with drop := new })).touch l
    let doubted := if (f.lane l).state.inTxn then f.raise s.env l .lostFrame (some (.lost 0)) none
      else f
    let c := (s.line n).counters
    s.judgeDrop n d o = { s with
      floor :=
        if old.trouble = false ∧ new.trouble = true ∧ (f.lane l).state ≠ .closed then
          f.raise s.env l .link none none
        else if old.trouble = true ∧ new.trouble = false then
          if (f.lane l).has .link then (doubted.resolve l .link).pass s.env l else doubted
        else f
      lines := upd s.lines n { s.line n with counters := match o with
        | .miss => { c with misses := min (c.misses + 1) 65535 }
        | .damaged => { c with damaged := min (c.damaged + 1) 65535 }
        | .good true => { c with noisy := min (c.noisy + 1) 65535 }
        | .good false => c }
      notices := { s.notices with
        line := if old.link = new.link then s.notices.line else addLane s.notices.line l } }) ∧
  ∀ (x : DropLink) (o : TurnEnd),
    let y := x.afterTurn o
    (o = .miss →
      (x.link = .online → y.link = .silent ∧ y.misses = 1) ∧
      (x.link = .silent → x.misses + 1 < 3 → y.link = .silent ∧ y.misses = x.misses + 1) ∧
      (x.link = .silent → 3 ≤ x.misses + 1 → y.link = .offline ∧ y.misses = 3) ∧
      (x.link = .offline → y.link = .offline ∧ y.misses = x.misses) ∧
      y.quality = x.quality ∧ y.lastSeq = x.lastSeq) ∧
    (o = .damaged →
      y.link = x.link ∧ y.misses = x.misses ∧ y.lastSeq = x.lastSeq ∧
      y.quality = min (x.quality + 4) 15) ∧
    (∀ noisy, o = .good noisy →
      y.link = .online ∧ (x.link ≠ .online → y.misses = 0) ∧
      (x.link = .online → y.misses = x.misses) ∧
      (x.link = .offline → y.lastSeq = none) ∧ (x.link ≠ .offline → y.lastSeq = x.lastSeq) ∧
      y.quality = if noisy then min (x.quality + 1) 15 else x.quality - 1) ∧
    (x.trouble = false → (y.trouble = true ↔ y.link = .offline ∨ 12 ≤ y.quality)) ∧
    (x.trouble = true → (y.trouble = false ↔ y.link = .online ∧ y.quality < 8))

/-! ## The lane engine -/

/-- The judgement of a frame handed to intake (R140 to R148): a duplicate is counted and its buffer
returned; a malformed frame is accepted with LOST_FRAME and counted; a well-formed one is deferred where it
must be, processed where it may be, and refused without room, leaving the last accepted sequence. What a
lane's reasons forbid (R39) and the room a kind needs (R146). That a frame is deferred also where its
sequence number is still on the list is the model's choice (log 32). The processing of a frame (R14): after
its own effect, a customer frame in a transaction restarts the inactivity timer, unless a session is open,
and resolves IDLE (R26, R27); then its lane event, with the fields of R163, is handed on by the map (R164),
or its buffer returns; a frame that is reported or dropped is counted; and on arrival a resolution starts a
deferred pass (R38). -/
def Obligations.FrameJudged : Prop :=
  (∀ (e : Env) (f : Floor) (l : LaneIx) (raw : RawFrame) (b : BufId),
    let x := f.lane l
    let last := x.drop.lastSeq
    let g := f.touch l
    let gap := match last with
      | none => 0
      | some q => (raw.seq - (q + 1)).toNat
    let accepted (lost : Nat) : Floor :=
      let h := g.modLane l (fun x =>
        { x with drop := { x.drop with lastSeq := some raw.seq }, refusalMark := false
                 counters := { x.counters with gaps := min (x.counters.gaps + gap) 65535 } })
      if 0 < lost then h.raise e l .lostFrame (some (.lost lost)) none else h
    let refused := (g.modLane l (fun x =>
      { x with refusalMark := true
               counters := { x.counters with
                 refused := min (x.counters.refused + 1) 65535 } })).giveBack b
    (last = some raw.seq → f.intake e l raw b =
      (g.modLane l (fun x => { x with counters := { x.counters with
        duplicates := min (x.counters.duplicates + 1) 65535 } })).giveBack b) ∧
    (last ≠ some raw.seq → parseFrame raw.code.toNat raw.content = none →
      f.intake e l raw b = ((accepted (gap + 1)).modLane l (fun x =>
        { x with counters := { x.counters with
            malformed := min (x.counters.malformed + 1) 65535 } })).giveBack b) ∧
    ∀ body, last ≠ some raw.seq → parseFrame raw.code.toNat raw.content = some body →
      let fr : Frame := { buf := b, lane := l, seq := raw.seq, body := body, gap := decide (0 < gap) }
      let defers := x.state ≠ .closed ∧ body.kind.deferrable = true ∧
        (x.deferred ≠ [] ∨ x.forbids body.kind = true ∨ 0 < gap)
      (defers → x.deferred.length < 6 → f.intake e l raw b =
        (accepted gap).modLane l (fun x => { x with deferred := x.deferred ++ [fr] })) ∧
      (defers → 6 ≤ x.deferred.length → f.intake e l raw b = refused) ∧
      (¬defers → f.room e body.kind = true →
        f.intake e l raw b = (accepted gap).processNow e fr) ∧
      (¬defers → f.room e body.kind = false → f.intake e l raw b = refused)) ∧
  (∀ (e : Env) (f : Floor) (x : Lane) (k : FrameKind),
    let held : Prop := k = .scan ∨ k = .weigh ∨ k = .total ∨ k = .resumeScan
    (k.deferrable = true ↔ held) ∧
    (x.forbids k = true ↔ x.state ≠ .closed ∧ ∃ r, x.has r = true ∧
      ((r.cls = .blocking ∧ held) ∨ (r.cls = .gating ∧ k = .total))) ∧
    (f.room e k = true ↔ ∀ c : ChanIx, e.map[k.ix] = some c →
      f.chans[c].state = .disabled ∨ f.chans[c].queue.length < 24)) ∧
  ∀ (e : Env) (f : Floor) (fr : Frame) (deferred : Bool),
    let l := fr.lane
    let marks := (if fr.gap then annGap else 0) ||| (if deferred then annDeferred else 0)
    let p := ({ floor := f } : Proc).effect e l fr.body
    let active := p.customer = true ∧ (p.floor.lane l).state.inTxn = true
    let g := (if active then
        (p.floor.modLane l (fun x =>
          { x with inactivity := if x.session.isSome then x.inactivity
                     else some e.params.inactivity })).resolve l .idle
      else p.floor).touch l
    let ev : LaneEvent :=
      { frame := fr
        txn := if (f.lane l).state.inTxn then some (f.lane l).txn
          else if (g.lane l).state.inTxn then some (g.lane l).txn else none
        stamp := e.now, annos := marks ||| p.annos, raised := p.raised, unresolved := p.unresolved }
    let counted := g.modLane l (fun x => { x with counters := { x.counters with
      outOfPlace := min (x.counters.outOfPlace + 1) 65535 } })
    let r := f.process e fr deferred
    (p.verdict = .applied → r.1 = g.handOn e ev) ∧
    (p.verdict = .reported → r.1 = counted.handOn e ev) ∧
    (p.verdict = .dropped → r.1 = counted.giveBack fr.buf) ∧
    (p.verdict = .unheard → r.1 = g.giveBack fr.buf) ∧
    (r.2 = true ↔ p.resolved = true ∨ (active ∧ (p.floor.lane l).has .idle = true)) ∧
    (deferred = false → f.processNow e fr = if r.2 then r.1.pass e l else r.1) ∧
    (e.map[fr.body.kind.ix] = none → g.handOn e ev = g.giveBack fr.buf) ∧
    ∀ c : ChanIx, e.map[fr.body.kind.ix] = some c →
      (g.chans[c].state = .disabled → g.handOn e ev =
        (g.modChan c (fun ch => { ch with discarded := min (ch.discarded + 1) 65535 })).giveBack
          fr.buf) ∧
      (g.chans[c].state ≠ .disabled →
        g.handOn e ev = g.modChan c (fun ch => { ch with queue := ch.queue ++ [ev] }))

/-- Items and their removal (R2, R19 to R21, R92): the flags of an item from the two lookups in the pinned
bank (without a pinned bank, which no transaction lacks, every entry is invalid: log 26); the limit check;
an item adds its line value, its weight, and a tolerance that never carries T above a cap it was not above
and adds nothing where T is above it; its entry goes on top of the stack with what it added; a VOID_LAST
after it restores the totals of an item without the age flag, and takes the item off the stack. -/
def Obligations.ItemAddedThenVoided : Prop :=
  (∀ (t : Tables) (pinned : Option BankId) (a : Article) (code : BitVec 16),
    let fl := lookupItem t pinned a code
    let group : Option GroupEntry := match pinned with
      | some bk => (t.bank bk).group code
      | none => none
    let watch : Option WatchEntry := match pinned with
      | some bk => (t.bank bk).watched a
      | none => none
    (fl.age = true ↔ (∃ g, group = some g ∧ g.age = true) ∨ ∃ w, watch = some w ∧ w.age = true) ∧
    (fl.attendant = true ↔
      (∃ g, group = some g ∧ g.attendant = true) ∨ ∃ w, watch = some w ∧ w.refer = true) ∧
    (fl.exempt = true ↔
      (∃ g, group = some g ∧ g.exempt = true) ∨ ∃ w, watch = some w ∧ w.exempt = true) ∧
    (∀ w n, watch = some w → w.tol = some n → fl.tol = n) ∧
    ((∀ w, watch = some w → w.tol = none) →
      (∀ g, group = some g → fl.tol = g.tol) ∧ (group = none → fl.tol = 0)) ∧
    (fl.unknown = true ↔ group = none)) ∧
  ∀ (p : Params) (i : ItemFrame) (fl : ItemFlags) (x : Lane),
    let w := if fl.exempt then 0 else i.weight
    let y := x.addItem p i fl
    let z := y.voidItem p
    let t := x.totals
    y = { x with totals := y.totals, stack := y.stack
                 bagSettle := if 0 < w then some p.bagSettle else x.bagSettle } ∧
    y.totals = { t with
      itemCount := t.itemCount + 1, value := t.value + i.lineValue
      expected := t.expected + w, tolerance := y.totals.tolerance } ∧
    (fl.exempt = true → y.totals.tolerance = t.tolerance) ∧
    (fl.exempt = false → t.tolerance ≤ p.toleranceCap →
      y.totals.tolerance = min (t.tolerance + i.quantity * fl.tol) p.toleranceCap) ∧
    (p.toleranceCap < t.tolerance → y.totals.tolerance = t.tolerance) ∧
    y.stack = ({ article := i.article, group := i.group, quantity := i.quantity
                 lineValue := i.lineValue, weight := w
                 tolerance := y.totals.tolerance - t.tolerance, age := fl.age
                 source := i.source } :: x.stack).take 8 ∧
    (limitOf t i.lineValue w = some .itemCount ↔ 999 ≤ t.itemCount) ∧
    (limitOf t i.lineValue w = some .value ↔
      t.itemCount < 999 ∧ 9999999 < t.value + i.lineValue) ∧
    (limitOf t i.lineValue w = some .weight ↔
      t.itemCount < 999 ∧ t.value + i.lineValue ≤ 9999999 ∧ 9999999 < t.expected + w) ∧
    (limitOf t i.lineValue w = none ↔
      t.itemCount < 999 ∧ t.value + i.lineValue ≤ 9999999 ∧ t.expected + w ≤ 9999999) ∧
    (fl.age = false → z.totals = t) ∧
    (x.stack.length < 8 → z.stack = x.stack) ∧ y.stack.length ≤ 8

/-- The effect of a frame by kind and lane state, before what follows every frame (R10 to R13, R15 to R23,
R82, R90): which frames are dropped, which reported and with what, and which changes they make. A SCAN or
WEIGH in READY starts a transaction and is then an item; an item is refused by the limit check with HELP of
source LIMIT, or added, with WATCH, AGE and HIGH_VALUE raised where they are due (that WATCH comes first is
the model's choice, log 30). A PAID in the paying states ends the transaction, and its event takes the
reasons removed. Which kinds are customer frames is R26.
That the buffers of a deferred list freed at the end of the transaction join the free list head first is the
model's choice (log 31). -/
def Obligations.FrameEffects : Prop :=
  (∀ (e : Env) (f : Floor) (l : LaneIx) (a : Article) (cents : BitVec 24),
    let x := f.lane l
    let st := x.state
    let effect (b : LaneFrame) : Proc := ({ floor := f } : Proc).effect e l b
    -- the whole of what the frame does, given its floor, verdict, annotations and raised set
    let does (b : LaneFrame) (g : Floor) (v : Verdict) (notes : AnnoSet) (raised : ReasonSet)
        (customer : Bool) : Prop := effect b =
      { floor := g, annos := notes, raised := raised, unresolved := 0, verdict := v
        resolved := false, customer := customer }
    let lostAt := f.raise e l .lostFrame (some (.lost 0)) none
    let dropped (b : LaneFrame) : Prop := does b f .dropped 0 0 true
    let items (b : LaneFrame) (i : ItemFrame) : Prop :=
      let item (g : Floor) : Prop :=
        let t := (g.lane l).totals
        let fl := lookupItem e.tables (g.lane l).pinned i.article i.group
        let w := if fl.exempt then 0 else i.weight
        (∀ code, limitOf t i.lineValue w = some code →
          does b (g.raise e l .help (some (.limit code)) (some .limit)) .reported annLimit
            (reasonBit .help) true) ∧
        (limitOf t i.lineValue w = none →
          let watch := fl.attendant = true ∨ fl.unknown = true
          let aged := fl.age = true ∧ t.ageApproved = false
          let v := t.value + i.lineValue
          let high := e.params.highLimit ≠ 0 ∧ e.params.highLimit ≤ v ∧ t.highRaised = false
          let g1 := if watch then g.raise e l .watch (some (.article i.article)) none else g
          let g2 := g1.modLane l (Lane.addItem e.params i fl)
          let g3 := if aged then (g2.modLane l (fun x =>
              { x with totals := { x.totals with ageCount := x.totals.ageCount + 1 } })).raise e l
                .age (some (.article i.article)) none
            else g2
          let g4 := if high then (g3.raise e l .highValue (some (.cents v)) none).modLane l (fun x =>
              { x with totals := { x.totals with highRaised := true } })
            else g3
          does b g4 .applied (if fl.unknown then annUnknownGroup else 0)
            ((if watch then reasonBit .watch else 0) ||| (if aged then reasonBit .age else 0) |||
              (if high then reasonBit .highValue else 0)) true)
      (st = .closed → does b f .reported annClosedLane 0 true) ∧
      (st = .ready → item ((f.modLane l (fun x =>
        { x with
            state := .scanning, txn := x.txn + 1, pinned := e.tables.current
            totals := { itemCount := 0, value := 0, expected := 0, tolerance := 0, bag := none
                        ageCount := 0, ageApproved := false, highRaised := false }
            stack := []
            inactivity := if x.session.isSome then x.inactivity
              else some e.params.inactivity })).flag l)) ∧
      (st.isScanning = true → item f) ∧
      (st.isPaying = true → does b lostAt .reported annOutOfOrder (reasonBit .lostFrame) true)
    (∀ bk, e.tables.current = some bk → (e.tables.bank bk).state = .current) ∧
    (e.tables.current = none → ∀ bk, (e.tables.bank bk).state ≠ .current) ∧
    (∀ group quantity price weight, items (.scan a group quantity price weight)
      { article := a, group := group, quantity := quantity.toNat
        lineValue := quantity.toNat * price.toNat, weight := quantity.toNat * weight.toNat
        source := .scan }) ∧
    (∀ group weight price, items (.weigh a group weight price)
      { article := a, group := group, quantity := 1, lineValue := price.toNat
        weight := weight.toNat, source := .weigh }) ∧
    (st.inTxn = false → dropped (.remove a)) ∧
    (st.inTxn = true → does (.remove a) (f.raise e l .void (some (.article a)) none) .applied 0
      (reasonBit .void) true) ∧
    does .help (f.raise e l .help none (some .screen)) .applied 0 (reasonBit .help) true ∧
    (st.isScanning = false → dropped (.total cents)) ∧
    (st.isScanning = true → cents.toNat ≠ x.totals.value →
      does (.total cents) lostAt .reported annMismatch (reasonBit .lostFrame) true) ∧
    (st.isScanning = true → cents.toNat = x.totals.value →
      does (.total cents) ((f.modLane l (fun x =>
        { x with state := if st = .scanning then .paying else .closingPay })).flag l) .applied 0 0
        true) ∧
    (st.isPaying = false → dropped .resumeScan) ∧
    (st.isPaying = true → does .resumeScan ((f.modLane l (fun x =>
      { x with state := if st = .paying then .scanning else .closingScan })).flag l) .applied 0 0
      true) ∧
    (st.isPaying = false → dropped (.tenderFail cents)) ∧
    (st.isPaying = true → does (.tenderFail cents)
      (f.raise e l .payFail (some (.cents cents.toNat)) none) .applied 0 (reasonBit .payFail) true) ∧
    (st = .closed → does (.paid cents) f .reported annOutOfOrder 0 false) ∧
    (st = .ready ∨ st.isScanning = true →
      does (.paid cents) lostAt .reported annOutOfOrder (reasonBit .lostFrame) false) ∧
    (st.isPaying = true →
      let r := Floor.endTxn l (if x.has .payFail then f.resolve l .payFail else f)
      effect (.paid cents) =
        { floor := r.1, annos := if r.2 = 0 then 0 else annUnresolved, raised := 0
          unresolved := r.2, verdict := .applied, resolved := x.has .payFail, customer := false }) ∧
    does (.bag cents false) f .applied 0 0 false ∧
    (st.inTxn = false → does (.bag cents true)
      (f.modLane l (fun x => { x with totals := { x.totals with bag := some cents.toNat } })) .applied
      0 0 (x.totals.bag != some cents.toNat)) ∧
    (∀ n : BadgeNo, e.tables.level n = none → does (.badge n)
      { f.modLane l (fun x => { x with refusal := some .badgeRefused, refusalTimer := some 3 }) with
        presence := { f.presence with
          badgeRefusals := min (f.presence.badgeRefusals + 1) 65535 } } .applied annRefused 0 false) ∧
    (∀ act : Action, x.session = none → does (.override act)
      { f.modLane l (fun x => { x with refusal := some .badgeRequired, refusalTimer := some 3 }) with
        presence := { f.presence with
          withoutSession := min (f.presence.withoutSession + 1) 65535 } } .unheard 0 0 false)) ∧
  ∀ (f : Floor) (l : LaneIx),
    let x := f.lane l
    let g := (f.endTxn l).1
    let y := g.lane l
    y.state = (if x.state.isClosing then .closed else .ready) ∧
    y.pinned = none ∧ y.stack = [] ∧ y.deferred = [] ∧ y.bagSettle = none ∧ y.inactivity = none ∧
    y.totals = x.totals ∧ y.txn = x.txn ∧ y.session = x.session ∧ y.presence = x.presence ∧
    y.reasons = x.reasons.filter (fun r => r == .help || r == .link) ∧
    y.counters = { x.counters with
      freed := min (x.counters.freed + x.deferred.length) 65535 } ∧
    g.free = f.free ++ x.deferred.map (·.buf) ∧
    (∀ other, other ≠ l → g.lane other = f.lane other) ∧
    (x.state.inTxn = true → hasLane g.laneFlags l = true) ∧ hasLane g.touched l = true ∧
    (let h := f.removeAll l (x.reasons.filter (fun r => r != .help && r != .link))
     g.desk = { h.desk with slots := g.desk.slots } ∧
     (∀ k : SlotIx, g.desk.slots[k].issue = h.desk.slots[k].issue) ∧
     ∀ k : SlotIx, g.desk.recAt k = (h.desk.recAt k).map (fun r =>
       { r with needsPresence := if x.state.isClosing = true ∧ r.lane = l
                  then r.reason.needsPresence else r.needsPresence })) ∧
    ∀ r, (f.endTxn l).2.getLsbD r.ix.1 = (x.has r && r != .help && r != .link)

/-- Readings, badges and override actions, before what follows every frame: a stable BAG in a transaction by
the settle timer (R23, R24); a BADGE in the list opens, closes or takes over a session or is refused (R82 to
R86); an OVERRIDE in a session is refused for level or for state, or done with the effect of its action (R90
to R97); with the annotation of each, whether it resolved a reason (R38), and what its event carries. Where
a reason is not raised its resolution changes nothing. A session that opens brings the lane's records, in
queue order, to ATTENDING (R75); one that closes clears its fields, starts the inactivity timer in a
transaction, and takes the records back to CLAIMED or WAITING (R76, R84). That the consoles which an opening
frees join the free order in the queue order of their records is the model's choice (log 20). -/
def Obligations.ReadingsBadgesAndOverrides : Prop :=
  (∀ (e : Env) (f : Floor) (l : LaneIx),
    let x := f.lane l
    -- the whole of what the frame does, given its floor, annotations and whether it resolved a reason
    let does (b : LaneFrame) (g : Floor) (notes : AnnoSet) (resolved : Bool) : Prop :=
      ({ floor := f } : Proc).effect e l b =
        { floor := g, annos := notes, raised := 0, unresolved := 0, verdict := .applied
          resolved := resolved, customer := false }
    let refusal (m : RefusalMsg) (y : Lane) : Lane := { y with refusal := some m, refusalTimer := some 3 }
    let restart (y : Lane) : Lane := { y with presence := some e.params.presence }
    (∀ r, x.entry r = none → f.resolve l r = f) ∧
    (∀ cents : BitVec 24, x.state.inTxn = true →
      let m := cents.toNat
      let d : Int := (m : Int) - x.totals.expected
      let fits := d.natAbs ≤ e.params.baseTolerance + x.totals.tolerance
      let read := f.modLane l (fun y => { y with totals := { y.totals with bag := some m } })
      let reads (g : Floor) (raised : ReasonSet) (resolved : Bool) : Prop :=
        ({ floor := f } : Proc).effect e l (.bag cents true) =
          { floor := g, annos := 0, raised := raised, unresolved := 0, verdict := .applied
            resolved := resolved, customer := x.totals.bag != some m }
      (fits → x.bagSettle = none → reads (read.resolve l .weight) 0 (x.has .weight)) ∧
      (fits → x.bagSettle.isSome = true →
        reads ((read.modLane l (fun y => { y with bagSettle := none })).resolve l .weight) 0
          (x.has .weight)) ∧
      (¬fits → x.bagSettle.isSome = true → reads read 0 false) ∧
      (¬fits → x.bagSettle = none →
        reads (read.raise e l .weight (some (.grams d)) none) (reasonBit .weight) false)) ∧
    (∀ (n : BadgeNo) (lv : Level), e.tables.level n = some lv →
      let taken := (f.modLane l (fun y =>
        { y with session := some { badge := n, level := lv, opened := e.now }
                 presence := some e.params.presence })).flag l
      (x.session = none →
        let g := (taken.modLane l (fun y =>
          { y with inactivity := none, refusal := none, refusalTimer := none })).resolve l .idle
        does (.badge n) { g with desk := g.desk.sessionOpened l } annDone (x.has .idle)) ∧
      ∀ se, x.session = some se →
        (se.badge = n → does (.badge n) (f.closeSession e.params l) annDone false) ∧
        (se.badge ≠ n → se.level = .one → lv = .two → does (.badge n) taken annDone false) ∧
        (se.badge ≠ n → (se.level = .two ∨ lv = .one) → does (.badge n)
          { f.modLane l (refusal .badgeRefused) with presence := { f.presence with
              badgeRefusals := min (f.presence.badgeRefusals + 1) 65535 } } annRefused false)) ∧
    ∀ se, x.session = some se →
      let refused (g : Lane → Lane) (act : Action) : Prop := does (.override act)
        { f.modLane l (fun y => restart (g y)) with presence := { f.presence with
            overrideRefusals := min (f.presence.overrideRefusals + 1) 65535 } } annRefused false
      let done (act : Action) (g : Floor) (resolved : Bool) : Prop :=
        does (.override act) (g.modLane l restart) annDone resolved
      let two := se.level = .two
      let txn := x.state.inTxn = true
      let called := x.has .help = true ∨ x.has .idle = true ∨ x.has .payFail = true ∨
        x.has .lostFrame = true ∨ x.has .void = true
      (¬two → refused (refusal .levelTooLow) .approveAge ∧
        refused (refusal .levelTooLow) .approveValue ∧ refused (refusal .levelTooLow) .cancel) ∧
      (two → ¬txn → refused id .approveAge ∧ refused id .approveValue ∧ refused id .cancel) ∧
      (¬txn → refused id .voidLast ∧ refused id .approveWeight) ∧
      (x.stack = [] → refused id .voidLast) ∧
      (x.has .watch = false → refused id .approveItem) ∧ (¬called → refused id .ack) ∧
      (called → done .ack (((((f.resolve l .help).resolve l .idle).resolve l .payFail).resolve l
        .lostFrame).resolve l .void) true) ∧
      (x.has .watch = true → done .approveItem (f.resolve l .watch) true) ∧
      (txn → done .approveWeight ((f.modLane l (fun y =>
        { y with totals := { y.totals with expected := y.totals.bag.getD 0, tolerance := 0 }
                 bagSettle := none })).resolve l .weight) (x.has .weight)) ∧
      (txn → two → done .approveAge ((f.modLane l (fun y =>
        { y with totals := { y.totals with ageApproved := true, ageCount := 0 } })).resolve l .age)
        (x.has .age)) ∧
      (txn → two → done .approveValue ((f.modLane l (fun y =>
        { y with totals := { y.totals with highRaised := true } })).resolve l .highValue)
        (x.has .highValue)) ∧
      (txn → two →
        let r := Floor.endTxn l f
        ({ floor := f } : Proc).effect e l (.override .cancel) =
          { floor := r.1.modLane l restart
            annos := (if r.2 = 0 then 0 else annUnresolved) ||| annDone, raised := 0
            unresolved := r.2, verdict := .applied, resolved := false, customer := false }) ∧
      ∀ i rest, txn → x.stack = i :: rest →
        let v := f.modLane l (fun y =>
          { y with
              stack := rest
              totals := { y.totals with
                value := y.totals.value - i.lineValue, itemCount := y.totals.itemCount - 1
                expected := y.totals.expected - i.weight
                tolerance := y.totals.tolerance - i.tolerance
                ageCount := if i.age then y.totals.ageCount - 1 else y.totals.ageCount }
              bagSettle := if 0 < i.weight then some e.params.bagSettle else y.bagSettle })
        let lastAged := i.age = true ∧ x.totals.ageCount ≤ 1
        done .voidLast ((if lastAged then v.resolve l .age else v).resolve l .void)
          (decide lastAged && x.has .age || x.has .void)) ∧
  (∀ (p : Params) (f : Floor) (l : LaneIx),
    ((f.lane l).session = none → f.closeSession p l = f) ∧
    ((f.lane l).session.isSome = true → f.closeSession p l =
      { (f.modLane l (fun x =>
          { x with session := none, presence := none, refusal := none, refusalTimer := none
                   inactivity := if x.state.inTxn then some p.inactivity else x.inactivity })).flag l with
        desk := f.desk.sessionClosed p l })) ∧
  ∀ (p : Params) (d : Desk) (l : LaneIx),
    let mine := d.queue.filter (fun kr => kr.2.lane == l)
    let attend (by_ : Option ConsoleIx) (k : SlotIx) (d : Desk) : Desk := d.modRec k (fun r =>
      { r with state := .attending by_, escal := none, offer := none, claim := none })
    let withdraw (c : ConsoleIx) (sent : Bool) (d : Desk) : Desk :=
      { d.modConsole c (fun x =>
          match sent, x.saved with
          | true, _ => { x with state := .free, pending := true, cause := .withdrawn }
          | false, none => { x with state := .free }
          | false, some (pending, cause) =>
            { x with state := .free, pending := pending, cause := cause, saved := none }) with
        freeOrder := d.freeOrder ++ [c], dispatchDue := true }
    let t := d.sessionClosed p l
    d.sessionOpened l = mine.foldl (fun d kr =>
      match kr.2.state with
      | .waiting => attend none kr.1 d
      | .offered c sent => attend none kr.1 (withdraw c sent d)
      | .claimed c => attend (some c) kr.1 d
      | .attending _ => d) d ∧
    t = { d with slots := t.slots, dispatchDue := t.dispatchDue } ∧
    (∀ k : SlotIx, t.slots[k].issue = d.slots[k].issue ∧ t.recAt k = (d.recAt k).map (fun r =>
      if r.lane = l then
        match r.state with
        | .attending (some c) => { r with state := .claimed c, claim := some p.claim }
        | .attending none =>
          { r with state := .waiting, claim := none, offer := none, escal := escalStart p r.current }
        | .waiting | .offered _ _ | .claimed _ => r
      else r)) ∧
    (t.dispatchDue = true ↔ d.dispatchDue = true ∨
      ∃ k r, d.recAt k = some r ∧ r.lane = l ∧ r.state = .attending none)

/-- Raises (R32 to R35, R53) and what takes a reason out of the raised set (R35 to R37, R51). A raise is made
after the insertions that earlier record ends of the event owe (R54), on the floor `f` they leave. A record
that ends frees the console it names, at the tail of the free order, with the cause of the end, or restored
where its offer was not yet sent (R61, R77); its slot takes the next issue, and an insertion is owed. A
resolution takes its reason out with RESOLVED (R36); a removal takes its reasons out with LANE_ENDED, in the
queue order of their records (R37, R77). -/
def Obligations.ReasonsRaisedAndTakenOut : Prop :=
  (∀ (e : Env) (before : Floor) (l : LaneIx) (r : Reason) (detail : Option Detail)
    (src : Option HelpSource),
    let f := before.insertions e.params
    let x := f.lane l
    let g := before.raise e l r detail src
    let has (s : HelpSource) : Bool := src == some s
    f.desk.freedSlots = 0 ∧
    (before.desk.freedSlots = 0 → f = before) ∧
    (x.state = .closed → r ≠ .help → r ≠ .link → g = f) ∧
    (x.state ≠ .closed ∨ r = .help ∨ r = .link →
      hasLane g.laneFlags l = true ∧ hasLane g.touched l = true ∧
      (∀ other, other ≠ l → g.lane other = f.lane other) ∧
      (∀ q, q ≠ r → (g.lane l).entry q = x.entry q) ∧
      (r ≠ .help → src = none → (g.lane l).help = x.help) ∧
      (∀ en, x.entry r = some en →
        (r = .help → (g.lane l).help =
          { screen := x.help.screen || has .screen, button := x.help.button || has .button
            limit := x.help.limit || has .limit }) ∧
        (g.lane l).entry r = some { en with detail := if detail.isSome then detail else en.detail } ∧
        (∀ k, en.queued = true → f.desk.find l r = some k →
          g.desk.recAt k = (f.desk.recAt k).map (fun y =>
            { y with detail := if detail.isSome then detail else y.detail }))) ∧
      (x.entry r = none →
        (r = .help → (g.lane l).help =
          { screen := has .screen, button := has .button, limit := has .limit }) ∧
        (∀ k, f.desk.freeSlot = some k →
          (g.lane l).entry r = some { stamp := e.now, queued := true, detail := detail } ∧
          g.desk.recAt k = some
            { lane := l, reason := r, base := e.params.base[r.ix], current := e.params.base[r.ix]
              stamp := e.now, state := if x.session.isSome then .attending none else .waiting
              declined := 0, needsPresence := r.needsPresence, detail := detail
              escal := if x.session.isSome then none else escalStart e.params e.params.base[r.ix]
              offer := none, claim := none } ∧
          g.desk.dispatchDue = (f.desk.dispatchDue || x.session.isNone)) ∧
        (f.desk.freeSlot = none →
          (g.lane l).entry r = some { stamp := e.now, queued := false, detail := detail } ∧
          g.desk.unqueuedRaises = min (f.desk.unqueuedRaises + 1) 65535 ∧
          g.desk.slots = f.desk.slots)))) ∧
  (∀ (f : Floor) (l : LaneIx) (r : Reason) (cause : Cause),
    let x := f.lane l
    let h := f.takeOut cause l r
    (x.entry r = none → h = f) ∧
    (∀ en, x.entry r = some en →
      (h.lane l).entry r = none ∧ (∀ q, q ≠ r → (h.lane l).entry q = x.entry q) ∧
      (∀ other, other ≠ l → h.lane other = f.lane other) ∧
      hasLane h.laneFlags l = true ∧ hasLane h.touched l = true ∧
      (r = .help → (h.lane l).help = { screen := false, button := false, limit := false } ∧
        (h.lane l).call.pending = false) ∧
      (r ≠ .help → (h.lane l).help = x.help ∧ (h.lane l).call = x.call) ∧
      (∀ k, en.queued = true → f.desk.find l r = some k →
        h.desk = f.desk.endRecord k cause ∧
        h.desk.recAt k = none ∧ h.desk.slots[k].issue = f.desk.slots[k].issue + 1) ∧
      (en.queued = false ∨ f.desk.find l r = none → h.desk = f.desk))) ∧
  (∀ (f : Floor) (l : LaneIx) (r : Reason), f.resolve l r = f.takeOut .resolved l r) ∧
  (∀ (f : Floor) (l : LaneIx) (rs : List Reason),
    let queued := ((f.desk.queue.filter (fun kr => kr.2.lane == l)).map (·.2.reason)).filter
      (fun r => rs.contains r)
    f.removeAll l rs = (queued ++ rs.filter (fun r => !queued.contains r)).foldl
      (fun f r => f.takeOut .laneEnded l r) f) ∧
  ∀ (d : Desk) (k : SlotIx) (r : Record) (cause : Cause), d.recAt k = some r →
    let gone (d : Desk) : Desk :=
      { d with slots := upd d.slots k { issue := d.slots[k].issue + 1, rec? := none }
               freedSlots := d.freedSlots + 1 }
    let freed (c : ConsoleIx) (g : Console → Console) : Desk :=
      { d.modConsole c (fun x => { g x with state := .free }) with
        freeOrder := d.freeOrder ++ [c], dispatchDue := true }
    (r.state = .waiting ∨ r.state = .attending none → d.endRecord k cause = gone d) ∧
    (∀ c, r.state = .offered c true ∨ r.state = .claimed c ∨ r.state = .attending (some c) →
      d.endRecord k cause = gone (freed c (fun x => { x with pending := true, cause := cause }))) ∧
    ∀ c, r.state = .offered c false →
      (∀ pending old, (d.console c).saved = some (pending, old) → d.endRecord k cause =
        gone (freed c (fun x => { x with pending := pending, cause := old, saved := none }))) ∧
      ((d.console c).saved = none → d.endRecord k cause = gone (freed c id))

/-- The directive words of the lanes that took part in an event are derived at its end: lamp and pause by
R45, the message by R46, and where any of them differs the next generation, counted modulo 8, that is
neither the echoed one nor that of the last DIRECT (R48). The other lanes are left alone. -/
def Obligations.DirectiveWordDerived : Prop :=
  ∀ (f : Floor) (l : LaneIx),
    let x := f.lane l
    let y := f.deriveTouched.lane l
    let blocking := ∃ r, x.has r = true ∧ r.cls = .blocking
    let gating := ∃ r, x.has r = true ∧ r.cls = .gating
    let weight (above : Bool) := ∃ en, x.entry .weight = some en ∧
      (above = true ↔ ∃ d : Int, en.detail = some (.grams d) ∧ 0 < d)
    (hasLane f.touched l = false → y = x) ∧
    (hasLane f.touched l = true →
      y = { x with word := y.word } ∧
      (x.state = .closed → y.word.lamp = .off) ∧
      (x.state ≠ .closed → blocking → y.word.lamp = .red) ∧
      (x.state ≠ .closed → ¬blocking → (∃ r, x.has r = true) → y.word.lamp = .amber) ∧
      (x.state ≠ .closed → (∀ r, x.has r = false) → y.word.lamp = .green) ∧
      (y.word.pause = true ↔ blocking ∨ x.deferred.length = 6 ∨ x.refusalMark = true) ∧
      (x.state = .closed → y.word.message = .laneClosed) ∧
      (x.state ≠ .closed → (∀ m, x.refusal = some m → y.word.message = m.message) ∧
        (x.refusal = none →
          (x.session.isSome = true → y.word.message = .attendantPresent) ∧
          (x.session = none →
            (weight true → y.word.message = .removeItem) ∧
            (¬weight true → x.bagSettle.isSome = true ∨ weight false →
              y.word.message = .placeItem) ∧
            (¬weight true → ¬weight false → x.bagSettle = none →
              (blocking ∨ gating → y.word.message = .waitAssist) ∧
              (¬(blocking ∨ gating) → x.has .help = true → y.word.message = .callNoted) ∧
              (¬(blocking ∨ gating) → x.has .help = false → y.word.message = .none))))) ∧
      (y.word.lamp = x.word.lamp → y.word.pause = x.word.pause →
        y.word.message = x.word.message → y.word = x.word) ∧
      (y.word.lamp ≠ x.word.lamp ∨ y.word.pause ≠ x.word.pause ∨
        y.word.message ≠ x.word.message →
        x.echo ≠ some y.word.gen ∧ x.lastDirect ≠ some y.word.gen ∧ y.word.gen ≠ x.word.gen ∧
          ∀ g : Gen, g ≠ x.word.gen → x.echo ≠ some g → x.lastDirect ≠ some g →
            (y.word.gen - x.word.gen).toNat ≤ (g - x.word.gen).toNat))

/-- The end of an event: the insertions it owes (R54), dispatch where it is due (R62), the directive words
of the lanes that took part (R48), and a choice of the arbiter (R165); the order is log 6, and what is owed
is kept in fields of the model's own (log 24). It leaves unchanged, in every state: every setting, table and
counter, every timer but the offer timer of an offer it sends, the frame pool, the lanes but for queued flags
and the directive words of the lanes that took part, the events queued, the records but for WAITING ones
offered and unsent offers sent, the slots' issues, and a message in transmission. Nothing is owed afterwards.
An insertion (R54) puts the first unqueued reason, by base priority, stamp, lane and reason, into the lowest
free slot. -/
def Obligations.EndOfEventFrame : Prop :=
  (∀ s : State,
    let i := s.floor.insertions s.params
    let d := if i.desk.dispatchDue then { i with desk := i.desk.dispatch s.tables.zones } else i
    s.settle = { s with floor := d.deriveTouched } ∧ s.finish = s.settle.arbiter) ∧
  (∀ (f : Floor) (l : LaneIx),
    f.deriveTouched = { f with lanes := f.deriveTouched.lanes, touched := 0 } ∧
    f.touch l = { f with touched := addLane f.touched l } ∧
    f.flag l = { f with laneFlags := addLane f.laneFlags l, touched := addLane f.touched l } ∧
    ∀ other, hasLane (addLane f.touched l) other = (hasLane f.touched other || other == l)) ∧
  (∀ s : State,
    let t := s.finish
    let d := s.floor.desk
    t.tables = s.tables ∧ t.params = s.params ∧ t.map = s.map ∧ t.lines = s.lines ∧
    t.mgmt = s.mgmt ∧ t.poolEmpty = s.poolEmpty ∧ t.storeTime = s.storeTime ∧
    t.prescaler = s.prescaler ∧ t.held = s.held ∧ t.pending = s.pending ∧
    t.link = { s.link with tx := t.link.tx } ∧ (s.link.tx ≠ none → t.link.tx = s.link.tx) ∧
    (s.linkUp = false → t.link.tx = s.link.tx) ∧
    t.floor.free = s.floor.free ∧ t.floor.presence = s.floor.presence ∧
    t.floor.releasePtr = s.floor.releasePtr ∧ t.floor.touched = 0 ∧
    t.floor.desk.dispatchDue = false ∧ t.floor.desk.freedSlots = 0 ∧
    (∀ l : LaneIx, t.floor.lane l =
      { s.floor.lane l with raised := (t.floor.lane l).raised, word := (t.floor.lane l).word }) ∧
    (∀ l : LaneIx, hasLane s.floor.touched l = false →
      (t.floor.lane l).word = (s.floor.lane l).word) ∧
    (∀ (l : LaneIx) (r : Reason),
      ((t.floor.lane l).entry r).map (fun en => (en.stamp, en.detail)) =
        ((s.floor.lane l).entry r).map (fun en => (en.stamp, en.detail))) ∧
    (d.freedSlots = 0 → ∀ l : LaneIx, (t.floor.lane l).raised = (s.floor.lane l).raised) ∧
    (∀ c : ChanIx, t.floor.chans[c] = { s.floor.chans[c] with
      credit := t.floor.chans[c].credit, pass := t.floor.chans[c].pass }) ∧
    (∀ c : ConsoleIx, c ∉ d.freeOrder → (t.floor.desk.console c).state = (d.console c).state) ∧
    (∀ k : SlotIx, t.floor.desk.slots[k].issue = d.slots[k].issue) ∧
    (∀ k : SlotIx, d.freedSlots = 0 → d.recAt k = none → t.floor.desk.recAt k = none) ∧
    (∀ (k : SlotIx) (r : Record), d.recAt k = some r →
      let offered (c : ConsoleIx) : Record := { r with state := .offered c false }
      let sent (c : ConsoleIx) : Record :=
        { r with state := .offered c true, offer := some s.params.offer }
      let stays := t.floor.desk.recAt k = some r
      let isSent := ∃ c, t.floor.desk.recAt k = some (sent c)
      (r.state = .waiting →
        stays ∨ (∃ c, t.floor.desk.recAt k = some (offered c)) ∨ isSent) ∧
      (∀ c, r.state = .offered c false → stays ∨ isSent) ∧
      ((∃ c, r.state = .offered c true) ∨ (∃ c, r.state = .claimed c) ∨
        (∃ by_, r.state = .attending by_) → stays)) ∧
    t.floor.desk.offerExpiries = d.offerExpiries ∧ t.floor.desk.claimRecalls = d.claimRecalls ∧
    t.floor.desk.unqueuedRaises = d.unqueuedRaises) ∧
  (∀ (p : Params) (f : Floor),
    let rank (a b : Unqueued) : Prop := b.base < a.base ∨ (b.base = a.base ∧
      (a.entry.stamp < b.entry.stamp ∨ (a.entry.stamp = b.entry.stamp ∧
        (a.lane < b.lane ∨ (a.lane = b.lane ∧ a.reason.ix ≤ b.reason.ix)))))
    (∀ u, u ∈ f.unqueued p ↔ (f.lane u.lane).entry u.reason = some u.entry ∧
      u.entry.queued = false ∧ u.base = p.base[u.reason.ix]) ∧
    (f.unqueued p).Pairwise rank) ∧
  ∀ (p : Params) (f : Floor) (n : Nat),
    (f.desk.freedSlots = 0 → f.insertions p = f) ∧
    (f.unqueued p = [] ∨ f.desk.freeSlot = none →
      f.insertions p = { f with desk := { f.desk with freedSlots := 0 } }) ∧
    ∀ u rest k, f.desk.freedSlots = n + 1 → f.unqueued p = u :: rest → f.desk.freeSlot = some k →
      let attended := (f.lane u.lane).session.isSome
      let record : Record :=
        { lane := u.lane, reason := u.reason, base := p.base[u.reason.ix]
          current := p.base[u.reason.ix], stamp := u.entry.stamp
          state := if attended then .attending none else .waiting
          declined := 0, needsPresence := u.reason.needsPresence, detail := u.entry.detail
          escal := if attended then none else escalStart p p.base[u.reason.ix]
          offer := none, claim := none }
      f.insertions p = Floor.insertions p
        { f.modLane u.lane (fun x =>
            x.setEntry u.reason (some { u.entry with queued := true })) with
          desk := { f.desk with
            freedSlots := n, dispatchDue := f.desk.dispatchDue || !attended
            slots := upd f.desk.slots k { f.desk.slots[k] with rec? := some record } } }

/-! ## What every step keeps -/

/-- The conditions of the four invariants hold at reset. -/
def Obligations.InvariantsHoldAtReset : Prop :=
  State.reset.tables.legal ∧ (∀ c : ChanIx, State.reset.floor.chans[c].legal) ∧
  (∀ l : LaneIx, (State.reset.floor.lane l).legal) ∧ State.reset.buffersInPlace

/-- Every step keeps at most one CURRENT and one LOADING bank, and the bounds and the form of the table
lists (R100, R101, R103, R113). -/
def Obligations.TablesInvariantKept : Prop :=
  ∀ s t : State, s.tables.legal → step s = .next t → t.tables.legal

/-- Every step keeps the credit and the pass count of every channel in their bounds, and 0 unless the
channel is OPEN (R161, R166), and at most 24 lane events in its queue (R164). -/
def Obligations.ChannelInvariantKept : Prop :=
  ∀ s t : State, (∀ c : ChanIx, s.floor.chans[c].legal) → step s = .next t →
    ∀ c : ChanIx, t.floor.chans[c].legal

/-- Every step keeps every lane's fields in accord: nothing of a transaction outside one, bounded stacks,
lists and totals, timers with what they time (R1 to R3, R26, R40, R44, R47, R87). -/
def Obligations.LaneInvariantKept : Prop :=
  ∀ s t : State, (∀ l : LaneIx, (s.floor.lane l).legal) → step s = .next t →
    ∀ l : LaneIx, (t.floor.lane l).legal

/-- Every step keeps each of the 64 frame buffers in exactly one place (R152). -/
def Obligations.BuffersStayInPlace : Prop :=
  ∀ s t : State, s.buffersInPlace → step s = .next t → t.buffersInPlace

/-- What is sent reads back: the message of a well-formed request is that request (11.2, R180, R194; how a
message is told apart into two commands is log 11), a NIL or a lane frame received clean, with whatever
comes after it, is the good answer with its echo, sequence and content, and what comes after it is left over
(R118, R126, R193; that an answer's characters are given with the command is log 17); a character of it
damaged makes the answer damaged and ends it there; and the content of a lane frame in range is that frame,
while what is accepted as a frame is the content of that frame, kept as it came (R143). -/
def Obligations.EncodingsReadBack : Prop :=
  let heard (more : List RxChar) : List RxChar := more.filter (fun c => !rxFalseStart c)
  (∀ (i : Instr) (w : WireRequest), i.wellFormed = true → i.wire = some w → requestOf w = i) ∧
  (∀ (d : DropIx) (echo : Gen) (more : List RxChar), receiveAnswer d (nilAnswer d echo ++ more) =
    (some { echo := echo, noisy := false, frame := none }, heard more)) ∧
  (∀ (d : DropIx) (code : BitVec 5) (seq : Seq) (echo : Gen) (content : List Byte)
    (more : List RxChar), code ≠ 0 → content.length ≤ 40 →
    receiveAnswer d (frameAnswer d code seq echo content ++ more) =
      (some { echo := echo, noisy := false
              frame := some { code := code, seq := seq, content := content } }, heard more)) ∧
  (∀ (d : DropIx) (code : BitVec 5) (seq : Seq) (echo : Gen) (content : List Byte) (k : Nat)
    (c : RxChar) (more : List RxChar), code ≠ 0 → content.length ≤ 40 →
    k < (frameAnswer d code seq echo content).length → rxFalseStart c = false →
    rxIntact (decide (k = 0)) c = false →
    receiveAnswer d ((frameAnswer d code seq echo content).take k ++ c :: more) =
      (none, heard more)) ∧
  (∀ b : LaneFrame, b.inRange = true → parseFrame (b.kind.ix.1 + 1) b.content = some b) ∧
  ∀ (code : Nat) (content : List Byte) (b : LaneFrame), parseFrame code content = some b →
    b.inRange = true ∧ b.kind.ix.1 + 1 = code ∧ b.content = content
end

