-- ==== Sys2Proof/Laws/Chars.lean ====
section
/-! SUPPORT. Numbers and their characters, what is accepted as a lane frame, and the checks character by
character (R143, R193, R194). -/

namespace Sys2Proof.Machine

/-! ## Numbers in characters -/

theorem num2_toNat (a b : Byte) : (num2 a b).toNat = a.toNat * 256 + b.toNat := by
  unfold num2
  rw [BitVec.toNat_append, ← Nat.shiftLeft_add_eq_or_of_lt b.isLt, Nat.shiftLeft_eq]

theorem num3_toNat (a b c : Byte) :
    (num3 a b c).toNat = (num2 a b).toNat * 256 + c.toNat := by
  unfold num3 num2
  rw [BitVec.toNat_append (y := c), ← Nat.shiftLeft_add_eq_or_of_lt c.isLt, Nat.shiftLeft_eq]

theorem num6_toNat (a b c d e f : Byte) : (num6 a b c d e f).toNat =
    (((num3 a b c).toNat * 256 + d.toNat) * 256 + e.toNat) * 256 + f.toNat := by
  unfold num6 num3
  rw [BitVec.toNat_append (y := f), ← Nat.shiftLeft_add_eq_or_of_lt f.isLt,
    BitVec.toNat_append (y := e), ← Nat.shiftLeft_add_eq_or_of_lt e.isLt,
    BitVec.toNat_append (y := d), ← Nat.shiftLeft_add_eq_or_of_lt d.isLt]
  simp only [Nat.shiftLeft_eq, Nat.reducePow]

theorem chars2_num2 (a b : Byte) : chars2 (num2 a b) = [a, b] := by
  have ha := a.isLt
  have hb := b.isLt
  have h := num2_toNat a b
  simp only [chars2, List.cons.injEq, and_true]
  refine ⟨?_, ?_⟩ <;> apply BitVec.eq_of_toNat_eq <;>
    simp only [BitVec.extractLsb'_toNat, h, Nat.shiftRight_eq_div_pow] <;> omega

theorem chars3_num3 (a b c : Byte) : chars3 (num3 a b c) = [a, b, c] := by
  have ha := a.isLt
  have hb := b.isLt
  have hc := c.isLt
  have h := num3_toNat a b c
  have h2 := num2_toNat a b
  simp only [chars3, List.cons.injEq, and_true]
  refine ⟨?_, ?_, ?_⟩ <;> apply BitVec.eq_of_toNat_eq <;>
    simp only [BitVec.extractLsb'_toNat, h, h2, Nat.shiftRight_eq_div_pow] <;> omega

theorem chars6_num6 (a b c d e f : Byte) : chars6 (num6 a b c d e f) = [a, b, c, d, e, f] := by
  have ha := a.isLt
  have hb := b.isLt
  have hc := c.isLt
  have hd := d.isLt
  have he := e.isLt
  have hf := f.isLt
  have h := num6_toNat a b c d e f
  have h3 := num3_toNat a b c
  have h2 := num2_toNat a b
  simp only [chars6, List.cons.injEq, and_true]
  refine ⟨?_, ?_, ?_, ?_, ?_, ?_⟩ <;> apply BitVec.eq_of_toNat_eq <;>
    simp only [BitVec.extractLsb'_toNat, h, h2, h3, Nat.shiftRight_eq_div_pow] <;> omega

/-- A 16-bit number has the characters of its value. -/
theorem chars2_eq_num2c (v : BitVec 16) : chars2 v = num2c v.toNat := by
  simp [num2c]

/-! ## Lane frames (R143) -/

theorem actionOf_eq {a : Byte} {act : Action} (h : actionOf a = some act) : act.code = a := by
  revert a act
  decide +kernel

/-- What is accepted as a frame is in range, is of the kind of its code, and is the content it came with. -/
theorem parseFrame_some {code : Nat} {content : List Byte} {b : LaneFrame}
    (h : parseFrame code content = some b) :
    b.inRange = true ∧ b.kind.ix.1 + 1 = code ∧ b.content = content := by
  unfold parseFrame at h
  split at h <;> try split at h
  all_goals first
    | cases h; done
    | (cases h; exact ⟨rfl, rfl, by simp [LaneFrame.content, chars2_num2, chars6_num6]⟩)
    | (obtain ⟨act, ha, rfl⟩ := Option.map_eq_some_iff.1 h
       exact ⟨rfl, rfl, by simp [LaneFrame.content, actionOf_eq ha]⟩)
    | (split at h
       case isFalse => cases h
       case isTrue hr =>
         cases h
         refine ⟨by simp_all [LaneFrame.inRange], rfl, ?_⟩
         first
           | (simp only [LaneFrame.content, chars2_num2, chars3_num3, chars6_num6]; done)
           | (simp only [LaneFrame.content, chars2_num2, chars3_num3, chars6_num6]; rfl)
           | (obtain ⟨_, rfl | rfl⟩ := hr <;> simp only [LaneFrame.content, chars3_num3] <;> rfl))

/-! ## Checks (R193, R194) -/

/-- The lane line check takes a character bit by bit, most significant first. -/
theorem crc8_concat (cs : List Byte) (b : Byte) :
    crc8 (cs ++ [b]) = (bitsMsb b).foldl crc8Bit (crc8 cs) := by
  simp [crc8, List.flatMap_append, List.foldl_append]

/-- The store link check takes a character bit by bit, most significant first. -/
theorem crc16_concat (cs : List Byte) (b : Byte) :
    crc16 (cs ++ [b]) = (bitsMsb b).foldl crc16Bit (crc16 cs) := by
  simp [crc16, List.flatMap_append, List.foldl_append]

end Sys2Proof.Machine
end

