-- ==== Sys2Proof/Laws/Lists.lean ====
section
/-! SUPPORT. The order and table operations of Ops: what they hold, in which order and how many. -/

namespace Sys2Proof.Machine

/-! ## Lists in an order -/

theorem insertBy_perm {α : Type} (before : α → α → Bool) (x : α) (xs : List α) :
    (insertBy before x xs).Perm (x :: xs) := by
  induction xs with
  | nil => exact List.Perm.refl _
  | cons y ys ih =>
    unfold insertBy
    split
    · exact List.Perm.refl _
    · exact (ih.cons y).trans (List.Perm.swap x y ys)

theorem sortBy_perm {α : Type} (before : α → α → Bool) (xs : List α) :
    (sortBy before xs).Perm xs := by
  induction xs with
  | nil => exact List.Perm.refl _
  | cons y ys ih => exact (insertBy_perm before y _).trans (ih.cons y)

/-- An element inserted in a list in rank order leaves it in rank order. -/
theorem insertBy_pairwise {α : Type} {before : α → α → Bool} {rank : α → α → Prop}
    (h1 : ∀ a b, before a b = true → rank a b) (h2 : ∀ a b, before a b = false → rank b a)
    (ht : ∀ a b c, rank a b → rank b c → rank a c) (x : α) {xs : List α} (h : xs.Pairwise rank) :
    (insertBy before x xs).Pairwise rank := by
  induction xs with
  | nil => simp [insertBy]
  | cons y ys ih =>
    unfold insertBy
    obtain ⟨ha, hb⟩ := List.pairwise_cons.1 h
    split
    · rename_i hb'
      refine List.pairwise_cons.2 ⟨fun z hz => ?_, h⟩
      rcases List.mem_cons.1 hz with rfl | hz
      · exact h1 _ _ hb'
      · exact ht _ _ _ (h1 _ _ hb') (ha z hz)
    · rename_i hb'
      refine List.pairwise_cons.2 ⟨fun z hz => ?_, ih hb⟩
      rcases List.mem_cons.1 ((insertBy_perm before x ys).mem_iff.1 hz) with rfl | hz
      · exact h2 _ _ (by simpa using hb')
      · exact ha z hz

/-- A sorted list is in rank order, where `before` decides a transitive total rank. -/
theorem sortBy_pairwise {α : Type} {before : α → α → Bool} {rank : α → α → Prop}
    (h1 : ∀ a b, before a b = true → rank a b) (h2 : ∀ a b, before a b = false → rank b a)
    (ht : ∀ a b c, rank a b → rank b c → rank a c) (xs : List α) :
    (sortBy before xs).Pairwise rank := by
  induction xs with
  | nil => simp [sortBy]
  | cons y ys ih => exact insertBy_pairwise h1 h2 ht y ih

/-- A property that `g` keeps holds after `n` applications. -/
theorem times_keeps {α : Type} {P : α → Prop} {g : α → α} (h : ∀ a, P a → P (g a)) (n : Nat) (a : α)
    (ha : P a) : P (times g n a) := by
  induction n generalizing a with
  | zero => exact ha
  | succ n ih => exact ih (g a) (h a ha)

/-- What `g` leaves unchanged, `n` applications leave unchanged. -/
theorem times_same {α β : Type} {v : α → β} {g : α → α} (h : ∀ a, v (g a) = v a) (n : Nat) (a : α) :
    v (times g n a) = v a := by
  induction n generalizing a with
  | zero => rfl
  | succ n ih => exact (ih (g a)).trans (h a)

/-- What every step of a fold leaves unchanged, the fold leaves unchanged. -/
theorem foldl_same {α β γ : Type} {v : β → γ} {g : β → α → β} (h : ∀ b a, v (g b a) = v b)
    (xs : List α) (b : β) : v (xs.foldl g b) = v b := by
  induction xs generalizing b with
  | nil => rfl
  | cons x xs ih => exact (ih (g b x)).trans (h b x)

/-- A property that every step of a fold keeps, the fold keeps. -/
theorem foldl_keeps {α β : Type} {P : β → Prop} {g : β → α → β} (h : ∀ b a, P b → P (g b a))
    (xs : List α) (b : β) (hb : P b) : P (xs.foldl g b) := by
  induction xs generalizing b with
  | nil => exact hb
  | cons x xs ih => exact ih (g b x) (h b x hb)

/-! ## Tables keyed by a code -/

theorem findKey_putKey_self {α : Type} (k : Nat) (a : α) (xs : List (Nat × α)) :
    findKey k (putKey k a xs) = some a := by
  induction xs with
  | nil => simp [putKey, findKey]
  | cons x xs ih =>
    obtain ⟨j, b⟩ := x
    unfold putKey
    split
    · simp [findKey]
    · split
      · simp [findKey]
      · rename_i h1 h2
        simp only [findKey]
        rw [if_neg (fun e => h2 e.symm)]
        exact ih

theorem findKey_putKey_ne {α : Type} (k j : Nat) (a : α) (xs : List (Nat × α)) (h : j ≠ k) :
    findKey j (putKey k a xs) = findKey j xs := by
  induction xs with
  | nil => simp [putKey, findKey, Ne.symm h]
  | cons x xs ih =>
    obtain ⟨i, b⟩ := x
    unfold putKey
    split
    · simp [findKey, Ne.symm h]
    · split
      · rename_i h2
        subst h2
        simp [findKey, Ne.symm h]
      · simp only [findKey, ih]

/-- A write lengthens a table only by a new key. -/
theorem putKey_length {α : Type} (k : Nat) (a : α) (xs : List (Nat × α)) :
    (putKey k a xs).length ≤ xs.length + 1 := by
  induction xs with
  | nil => simp [putKey]
  | cons x xs ih =>
    obtain ⟨j, b⟩ := x
    unfold putKey
    split
    · simp
    · split
      · simp
      · simpa using ih

/-- Every key of a written table is the key written or a key from before. -/
theorem putKey_keys {α : Type} (k : Nat) (a : α) (xs : List (Nat × α)) :
    ∀ p ∈ putKey k a xs, p.1 = k ∨ p ∈ xs := by
  induction xs with
  | nil => simp [putKey]
  | cons x xs ih =>
    obtain ⟨j, b⟩ := x
    intro p hp
    unfold putKey at hp
    split at hp
    · rcases List.mem_cons.1 hp with h | h
      · exact .inl (by rw [h])
      · exact .inr h
    · split at hp
      · rcases List.mem_cons.1 hp with h | h
        · exact .inl (by rw [h])
        · exact .inr (List.mem_cons_of_mem _ h)
      · rcases List.mem_cons.1 hp with h | h
        · exact .inr (by rw [h]; exact List.mem_cons_self)
        · rcases ih p h with h | h
          · exact .inl h
          · exact .inr (List.mem_cons_of_mem _ h)

/-- A table has rising keys when its first key is below every key of a rest that has. -/
theorem risingKeys_cons {α : Type} (j : Nat) (a : α) (xs : List (Nat × α)) :
    risingKeys ((j, a) :: xs) = true ↔ (∀ p ∈ xs, j < p.1) ∧ risingKeys xs = true := by
  induction xs generalizing j a with
  | nil => simp [risingKeys]
  | cons x xs ih =>
    obtain ⟨k, b⟩ := x
    constructor
    · intro h
      have h' : j < k ∧ risingKeys ((k, b) :: xs) = true := by simpa [risingKeys] using h
      refine ⟨?_, h'.2⟩
      intro p hp
      rcases List.mem_cons.1 hp with h | h
      · rw [h]; exact h'.1
      · exact Nat.lt_trans h'.1 (((ih k b).1 h'.2).1 p h)
    · rintro ⟨h1, h2⟩
      have : j < k := h1 (k, b) List.mem_cons_self
      simp [risingKeys, this, h2]

/-- A write keeps the rising order of the keys. -/
theorem risingKeys_putKey {α : Type} (k : Nat) (a : α) (xs : List (Nat × α))
    (h : risingKeys xs = true) : risingKeys (putKey k a xs) = true := by
  induction xs with
  | nil => rfl
  | cons x xs ih =>
    obtain ⟨j, b⟩ := x
    obtain ⟨h1, h2⟩ := (risingKeys_cons j b xs).1 h
    unfold putKey
    split
    · rename_i hk
      exact (risingKeys_cons _ _ _).2 ⟨fun p hp => by
        rcases List.mem_cons.1 hp with e | e
        · rw [e]; exact hk
        · exact Nat.lt_trans hk (h1 p e), h⟩
    · split
      · rename_i hk
        exact (risingKeys_cons _ _ _).2 ⟨hk ▸ h1, h2⟩
      · rename_i hk hne
        refine (risingKeys_cons _ _ _).2 ⟨fun p hp => ?_, ih h2⟩
        rcases putKey_keys k a xs p hp with e | e
        · omega
        · exact h1 p e

/-- Taking a key out keeps the rising order of the keys. -/
theorem risingKeys_dropKey {α : Type} (k : Nat) (xs : List (Nat × α)) (h : risingKeys xs = true) :
    risingKeys (dropKey k xs) = true := by
  induction xs with
  | nil => rfl
  | cons x xs ih =>
    obtain ⟨j, b⟩ := x
    obtain ⟨h1, h2⟩ := (risingKeys_cons j b xs).1 h
    unfold dropKey
    rw [List.filter_cons]
    split
    · refine (risingKeys_cons _ _ _).2 ⟨fun p hp => h1 p (List.mem_filter.1 hp).1, ih h2⟩
    · exact ih h2

/-! ## Timers -/

theorem tickTimer_isSome (t : Timer) : (tickTimer t).isSome = t.isSome := by
  cases t <;> rfl

theorem timerDue_iff (t : Timer) : timerDue t = true ↔ t = some 0 := by
  simp [timerDue]

end Sys2Proof.Machine
end

