-- ==== Sys2Proof/Laws/State.lean ====
section
/-! SUPPORT. What each named update of the state does to each field, true by `rfl`; and reading an
entry of a vector after an update. -/

namespace Sys2Proof

@[simp] theorem upd_get_self {α : Type} {n : Nat} (xs : Vector α n) (i : Fin n) (a : α) :
    (upd xs i a)[i] = a := by
  simp [upd]

theorem upd_get_ne {α : Type} {n : Nat} (xs : Vector α n) (i j : Fin n) (a : α) (h : j ≠ i) :
    (upd xs i a)[j] = xs[j] := by
  have : i.1 ≠ j.1 := fun e => h (Fin.ext e.symm)
  simp [upd, this]

@[simp] theorem upd_upd {α : Type} {n : Nat} (xs : Vector α n) (i : Fin n) (a b : α) :
    upd (upd xs i a) i b = upd xs i b := by
  simp [upd]

@[simp] theorem upd_get {α : Type} {n : Nat} (xs : Vector α n) (i : Fin n) :
    upd xs i xs[i] = xs := by
  simp [upd]

end Sys2Proof

namespace Sys2Proof.Machine

/-! ## The state -/

@[simp] theorem State.flagPart_floor (s : State) : (s.flagPart).floor = s.floor := rfl
@[simp] theorem State.flagPart_lines (s : State) : (s.flagPart).lines = s.lines := rfl
@[simp] theorem State.flagPart_tables (s : State) : (s.flagPart).tables = s.tables := rfl
@[simp] theorem State.flagPart_map (s : State) : (s.flagPart).map = s.map := rfl
@[simp] theorem State.flagPart_params (s : State) : (s.flagPart).params = s.params := rfl
@[simp] theorem State.flagPart_link (s : State) : (s.flagPart).link = s.link := rfl
@[simp] theorem State.flagPart_mgmt (s : State) : (s.flagPart).mgmt = s.mgmt := rfl
@[simp] theorem State.flagPart_notices (s : State) :
    (s.flagPart).notices = { s.notices with part := true } := rfl
@[simp] theorem State.flagPart_poolEmpty (s : State) : (s.flagPart).poolEmpty = s.poolEmpty := rfl
@[simp] theorem State.flagPart_storeTime (s : State) : (s.flagPart).storeTime = s.storeTime := rfl
@[simp] theorem State.flagPart_prescaler (s : State) : (s.flagPart).prescaler = s.prescaler := rfl
@[simp] theorem State.flagPart_held (s : State) : (s.flagPart).held = s.held := rfl
@[simp] theorem State.flagPart_freeCount (s : State) : (s.flagPart).freeCount = s.freeCount := rfl
@[simp] theorem State.flagPart_pending (s : State) : (s.flagPart).pending = s.pending := rfl

@[simp] theorem State.flagLine_floor (s : State) (l : LaneIx) :
    (s.flagLine l).floor = s.floor := rfl
@[simp] theorem State.flagLine_lines (s : State) (l : LaneIx) :
    (s.flagLine l).lines = s.lines := rfl
@[simp] theorem State.flagLine_tables (s : State) (l : LaneIx) :
    (s.flagLine l).tables = s.tables := rfl
@[simp] theorem State.flagLine_map (s : State) (l : LaneIx) : (s.flagLine l).map = s.map := rfl
@[simp] theorem State.flagLine_params (s : State) (l : LaneIx) :
    (s.flagLine l).params = s.params := rfl
@[simp] theorem State.flagLine_link (s : State) (l : LaneIx) : (s.flagLine l).link = s.link := rfl
@[simp] theorem State.flagLine_mgmt (s : State) (l : LaneIx) : (s.flagLine l).mgmt = s.mgmt := rfl
@[simp] theorem State.flagLine_notices (s : State) (l : LaneIx) :
    (s.flagLine l).notices = { s.notices with line := addLane s.notices.line l } := rfl
@[simp] theorem State.flagLine_poolEmpty (s : State) (l : LaneIx) :
    (s.flagLine l).poolEmpty = s.poolEmpty := rfl
@[simp] theorem State.flagLine_storeTime (s : State) (l : LaneIx) :
    (s.flagLine l).storeTime = s.storeTime := rfl
@[simp] theorem State.flagLine_prescaler (s : State) (l : LaneIx) :
    (s.flagLine l).prescaler = s.prescaler := rfl
@[simp] theorem State.flagLine_held (s : State) (l : LaneIx) : (s.flagLine l).held = s.held := rfl
@[simp] theorem State.flagLine_freeCount (s : State) (l : LaneIx) :
    (s.flagLine l).freeCount = s.freeCount := rfl
@[simp] theorem State.flagLine_pending (s : State) (l : LaneIx) :
    (s.flagLine l).pending = s.pending := rfl

@[simp] theorem State.modLine_floor (s : State) (n : LineIx) (g : Line → Line) :
    (s.modLine n g).floor = s.floor := rfl
@[simp] theorem State.modLine_lines (s : State) (n : LineIx) (g : Line → Line) :
    (s.modLine n g).lines = upd s.lines n (g s.lines[n]) := rfl
@[simp] theorem State.modLine_tables (s : State) (n : LineIx) (g : Line → Line) :
    (s.modLine n g).tables = s.tables := rfl
@[simp] theorem State.modLine_map (s : State) (n : LineIx) (g : Line → Line) :
    (s.modLine n g).map = s.map := rfl
@[simp] theorem State.modLine_params (s : State) (n : LineIx) (g : Line → Line) :
    (s.modLine n g).params = s.params := rfl
@[simp] theorem State.modLine_link (s : State) (n : LineIx) (g : Line → Line) :
    (s.modLine n g).link = s.link := rfl
@[simp] theorem State.modLine_mgmt (s : State) (n : LineIx) (g : Line → Line) :
    (s.modLine n g).mgmt = s.mgmt := rfl
@[simp] theorem State.modLine_notices (s : State) (n : LineIx) (g : Line → Line) :
    (s.modLine n g).notices = s.notices := rfl
@[simp] theorem State.modLine_poolEmpty (s : State) (n : LineIx) (g : Line → Line) :
    (s.modLine n g).poolEmpty = s.poolEmpty := rfl
@[simp] theorem State.modLine_storeTime (s : State) (n : LineIx) (g : Line → Line) :
    (s.modLine n g).storeTime = s.storeTime := rfl
@[simp] theorem State.modLine_prescaler (s : State) (n : LineIx) (g : Line → Line) :
    (s.modLine n g).prescaler = s.prescaler := rfl
@[simp] theorem State.modLine_held (s : State) (n : LineIx) (g : Line → Line) :
    (s.modLine n g).held = s.held := rfl
@[simp] theorem State.modLine_freeCount (s : State) (n : LineIx) (g : Line → Line) :
    (s.modLine n g).freeCount = s.freeCount := rfl
@[simp] theorem State.modLine_pending (s : State) (n : LineIx) (g : Line → Line) :
    (s.modLine n g).pending = s.pending := rfl

@[simp] theorem State.onFloor_floor (s : State) (g : Floor → Floor) :
    (s.onFloor g).floor = g s.floor := rfl
@[simp] theorem State.onFloor_lines (s : State) (g : Floor → Floor) :
    (s.onFloor g).lines = s.lines := rfl
@[simp] theorem State.onFloor_tables (s : State) (g : Floor → Floor) :
    (s.onFloor g).tables = s.tables := rfl
@[simp] theorem State.onFloor_map (s : State) (g : Floor → Floor) : (s.onFloor g).map = s.map := rfl
@[simp] theorem State.onFloor_params (s : State) (g : Floor → Floor) :
    (s.onFloor g).params = s.params := rfl
@[simp] theorem State.onFloor_link (s : State) (g : Floor → Floor) :
    (s.onFloor g).link = s.link := rfl
@[simp] theorem State.onFloor_mgmt (s : State) (g : Floor → Floor) :
    (s.onFloor g).mgmt = s.mgmt := rfl
@[simp] theorem State.onFloor_notices (s : State) (g : Floor → Floor) :
    (s.onFloor g).notices = s.notices := rfl
@[simp] theorem State.onFloor_poolEmpty (s : State) (g : Floor → Floor) :
    (s.onFloor g).poolEmpty = s.poolEmpty := rfl
@[simp] theorem State.onFloor_storeTime (s : State) (g : Floor → Floor) :
    (s.onFloor g).storeTime = s.storeTime := rfl
@[simp] theorem State.onFloor_prescaler (s : State) (g : Floor → Floor) :
    (s.onFloor g).prescaler = s.prescaler := rfl
@[simp] theorem State.onFloor_held (s : State) (g : Floor → Floor) :
    (s.onFloor g).held = s.held := rfl
@[simp] theorem State.onFloor_freeCount (s : State) (g : Floor → Floor) :
    (s.onFloor g).freeCount = s.freeCount := rfl
@[simp] theorem State.onFloor_pending (s : State) (g : Floor → Floor) :
    (s.onFloor g).pending = s.pending := rfl

@[simp] theorem State.onDesk_floor (s : State) (g : Desk → Desk) :
    (s.onDesk g).floor = { s.floor with desk := g s.floor.desk } := rfl
@[simp] theorem State.onDesk_lines (s : State) (g : Desk → Desk) :
    (s.onDesk g).lines = s.lines := rfl
@[simp] theorem State.onDesk_tables (s : State) (g : Desk → Desk) :
    (s.onDesk g).tables = s.tables := rfl
@[simp] theorem State.onDesk_map (s : State) (g : Desk → Desk) : (s.onDesk g).map = s.map := rfl
@[simp] theorem State.onDesk_params (s : State) (g : Desk → Desk) :
    (s.onDesk g).params = s.params := rfl
@[simp] theorem State.onDesk_link (s : State) (g : Desk → Desk) : (s.onDesk g).link = s.link := rfl
@[simp] theorem State.onDesk_mgmt (s : State) (g : Desk → Desk) : (s.onDesk g).mgmt = s.mgmt := rfl
@[simp] theorem State.onDesk_notices (s : State) (g : Desk → Desk) :
    (s.onDesk g).notices = s.notices := rfl
@[simp] theorem State.onDesk_poolEmpty (s : State) (g : Desk → Desk) :
    (s.onDesk g).poolEmpty = s.poolEmpty := rfl
@[simp] theorem State.onDesk_storeTime (s : State) (g : Desk → Desk) :
    (s.onDesk g).storeTime = s.storeTime := rfl
@[simp] theorem State.onDesk_prescaler (s : State) (g : Desk → Desk) :
    (s.onDesk g).prescaler = s.prescaler := rfl
@[simp] theorem State.onDesk_held (s : State) (g : Desk → Desk) : (s.onDesk g).held = s.held := rfl
@[simp] theorem State.onDesk_freeCount (s : State) (g : Desk → Desk) :
    (s.onDesk g).freeCount = s.freeCount := rfl
@[simp] theorem State.onDesk_pending (s : State) (g : Desk → Desk) :
    (s.onDesk g).pending = s.pending := rfl

@[simp] theorem State.hunt_floor (s : State) : (s.hunt).floor = s.floor := rfl
@[simp] theorem State.hunt_lines (s : State) : (s.hunt).lines = s.lines := rfl
@[simp] theorem State.hunt_tables (s : State) : (s.hunt).tables = s.tables := rfl
@[simp] theorem State.hunt_map (s : State) : (s.hunt).map = s.map := rfl
@[simp] theorem State.hunt_params (s : State) : (s.hunt).params = s.params := rfl
@[simp] theorem State.hunt_link (s : State) : (s.hunt).link = { s.link with rx := .hunt } := rfl
@[simp] theorem State.hunt_mgmt (s : State) : (s.hunt).mgmt = s.mgmt := rfl
@[simp] theorem State.hunt_notices (s : State) : (s.hunt).notices = s.notices := rfl
@[simp] theorem State.hunt_poolEmpty (s : State) : (s.hunt).poolEmpty = s.poolEmpty := rfl
@[simp] theorem State.hunt_storeTime (s : State) : (s.hunt).storeTime = s.storeTime := rfl
@[simp] theorem State.hunt_prescaler (s : State) : (s.hunt).prescaler = s.prescaler := rfl
@[simp] theorem State.hunt_held (s : State) : (s.hunt).held = s.held := rfl
@[simp] theorem State.hunt_freeCount (s : State) : (s.hunt).freeCount = s.freeCount := rfl
@[simp] theorem State.hunt_pending (s : State) : (s.hunt).pending = s.pending := rfl

@[simp] theorem State.idleTx_floor (s : State) : (s.idleTx).floor = s.floor := rfl
@[simp] theorem State.idleTx_lines (s : State) : (s.idleTx).lines = s.lines := rfl
@[simp] theorem State.idleTx_tables (s : State) : (s.idleTx).tables = s.tables := rfl
@[simp] theorem State.idleTx_map (s : State) : (s.idleTx).map = s.map := rfl
@[simp] theorem State.idleTx_params (s : State) : (s.idleTx).params = s.params := rfl
@[simp] theorem State.idleTx_link (s : State) : (s.idleTx).link = { s.link with tx := none } := rfl
@[simp] theorem State.idleTx_mgmt (s : State) : (s.idleTx).mgmt = s.mgmt := rfl
@[simp] theorem State.idleTx_notices (s : State) : (s.idleTx).notices = s.notices := rfl
@[simp] theorem State.idleTx_poolEmpty (s : State) : (s.idleTx).poolEmpty = s.poolEmpty := rfl
@[simp] theorem State.idleTx_storeTime (s : State) : (s.idleTx).storeTime = s.storeTime := rfl
@[simp] theorem State.idleTx_prescaler (s : State) : (s.idleTx).prescaler = s.prescaler := rfl
@[simp] theorem State.idleTx_held (s : State) : (s.idleTx).held = s.held := rfl
@[simp] theorem State.idleTx_freeCount (s : State) : (s.idleTx).freeCount = s.freeCount := rfl
@[simp] theorem State.idleTx_pending (s : State) : (s.idleTx).pending = s.pending := rfl

@[simp] theorem State.send_floor (s : State) (m : TxMessage) : (s.send m).floor = s.floor := rfl
@[simp] theorem State.send_lines (s : State) (m : TxMessage) : (s.send m).lines = s.lines := rfl
@[simp] theorem State.send_tables (s : State) (m : TxMessage) : (s.send m).tables = s.tables := rfl
@[simp] theorem State.send_map (s : State) (m : TxMessage) : (s.send m).map = s.map := rfl
@[simp] theorem State.send_params (s : State) (m : TxMessage) : (s.send m).params = s.params := rfl
@[simp] theorem State.send_link (s : State) (m : TxMessage) :
    (s.send m).link = { s.link with tx := some m } := rfl
@[simp] theorem State.send_mgmt (s : State) (m : TxMessage) : (s.send m).mgmt = s.mgmt := rfl
@[simp] theorem State.send_notices (s : State) (m : TxMessage) :
    (s.send m).notices = s.notices := rfl
@[simp] theorem State.send_poolEmpty (s : State) (m : TxMessage) :
    (s.send m).poolEmpty = s.poolEmpty := rfl
@[simp] theorem State.send_storeTime (s : State) (m : TxMessage) :
    (s.send m).storeTime = s.storeTime := rfl
@[simp] theorem State.send_prescaler (s : State) (m : TxMessage) :
    (s.send m).prescaler = s.prescaler := rfl
@[simp] theorem State.send_held (s : State) (m : TxMessage) : (s.send m).held = s.held := rfl
@[simp] theorem State.send_freeCount (s : State) (m : TxMessage) :
    (s.send m).freeCount = s.freeCount := rfl
@[simp] theorem State.send_pending (s : State) (m : TxMessage) :
    (s.send m).pending = s.pending := rfl

@[simp] theorem State.settle_floor (s : State) : (s.settle).floor = s.floor.settle s.env := rfl
@[simp] theorem State.settle_lines (s : State) : (s.settle).lines = s.lines := rfl
@[simp] theorem State.settle_tables (s : State) : (s.settle).tables = s.tables := rfl
@[simp] theorem State.settle_map (s : State) : (s.settle).map = s.map := rfl
@[simp] theorem State.settle_params (s : State) : (s.settle).params = s.params := rfl
@[simp] theorem State.settle_link (s : State) : (s.settle).link = s.link := rfl
@[simp] theorem State.settle_mgmt (s : State) : (s.settle).mgmt = s.mgmt := rfl
@[simp] theorem State.settle_notices (s : State) : (s.settle).notices = s.notices := rfl
@[simp] theorem State.settle_poolEmpty (s : State) : (s.settle).poolEmpty = s.poolEmpty := rfl
@[simp] theorem State.settle_storeTime (s : State) : (s.settle).storeTime = s.storeTime := rfl
@[simp] theorem State.settle_prescaler (s : State) : (s.settle).prescaler = s.prescaler := rfl
@[simp] theorem State.settle_held (s : State) : (s.settle).held = s.held := rfl
@[simp] theorem State.settle_freeCount (s : State) : (s.settle).freeCount = s.freeCount := rfl
@[simp] theorem State.settle_pending (s : State) : (s.settle).pending = s.pending := rfl

@[simp] theorem State.setBank_floor (s : State) (bk : BankId) (x : Bank) :
    (s.setBank bk x).floor = s.floor := rfl
@[simp] theorem State.setBank_lines (s : State) (bk : BankId) (x : Bank) :
    (s.setBank bk x).lines = s.lines := rfl
@[simp] theorem State.setBank_tables (s : State) (bk : BankId) (x : Bank) :
    (s.setBank bk x).tables = s.tables.setBank bk x := rfl
@[simp] theorem State.setBank_map (s : State) (bk : BankId) (x : Bank) :
    (s.setBank bk x).map = s.map := rfl
@[simp] theorem State.setBank_params (s : State) (bk : BankId) (x : Bank) :
    (s.setBank bk x).params = s.params := rfl
@[simp] theorem State.setBank_link (s : State) (bk : BankId) (x : Bank) :
    (s.setBank bk x).link = s.link := rfl
@[simp] theorem State.setBank_mgmt (s : State) (bk : BankId) (x : Bank) :
    (s.setBank bk x).mgmt = s.mgmt := rfl
@[simp] theorem State.setBank_notices (s : State) (bk : BankId) (x : Bank) :
    (s.setBank bk x).notices = s.notices := rfl
@[simp] theorem State.setBank_poolEmpty (s : State) (bk : BankId) (x : Bank) :
    (s.setBank bk x).poolEmpty = s.poolEmpty := rfl
@[simp] theorem State.setBank_storeTime (s : State) (bk : BankId) (x : Bank) :
    (s.setBank bk x).storeTime = s.storeTime := rfl
@[simp] theorem State.setBank_prescaler (s : State) (bk : BankId) (x : Bank) :
    (s.setBank bk x).prescaler = s.prescaler := rfl
@[simp] theorem State.setBank_held (s : State) (bk : BankId) (x : Bank) :
    (s.setBank bk x).held = s.held := rfl
@[simp] theorem State.setBank_freeCount (s : State) (bk : BankId) (x : Bank) :
    (s.setBank bk x).freeCount = s.freeCount := rfl
@[simp] theorem State.setBank_pending (s : State) (bk : BankId) (x : Bank) :
    (s.setBank bk x).pending = s.pending := rfl

@[simp] theorem State.setBankState_floor (s : State) (bk : BankId) (st : BankState) :
    (s.setBankState bk st).floor = s.floor := rfl
@[simp] theorem State.setBankState_lines (s : State) (bk : BankId) (st : BankState) :
    (s.setBankState bk st).lines = s.lines := rfl
@[simp] theorem State.setBankState_tables (s : State) (bk : BankId) (st : BankState) :
    (s.setBankState bk st).tables =
      s.tables.setBank bk { s.tables.bank bk with state := st } := rfl
@[simp] theorem State.setBankState_map (s : State) (bk : BankId) (st : BankState) :
    (s.setBankState bk st).map = s.map := rfl
@[simp] theorem State.setBankState_params (s : State) (bk : BankId) (st : BankState) :
    (s.setBankState bk st).params = s.params := rfl
@[simp] theorem State.setBankState_link (s : State) (bk : BankId) (st : BankState) :
    (s.setBankState bk st).link = s.link := rfl
@[simp] theorem State.setBankState_mgmt (s : State) (bk : BankId) (st : BankState) :
    (s.setBankState bk st).mgmt = s.mgmt := rfl
@[simp] theorem State.setBankState_notices (s : State) (bk : BankId) (st : BankState) :
    (s.setBankState bk st).notices = { s.notices with part := true } := rfl
@[simp] theorem State.setBankState_poolEmpty (s : State) (bk : BankId) (st : BankState) :
    (s.setBankState bk st).poolEmpty = s.poolEmpty := rfl
@[simp] theorem State.setBankState_storeTime (s : State) (bk : BankId) (st : BankState) :
    (s.setBankState bk st).storeTime = s.storeTime := rfl
@[simp] theorem State.setBankState_prescaler (s : State) (bk : BankId) (st : BankState) :
    (s.setBankState bk st).prescaler = s.prescaler := rfl
@[simp] theorem State.setBankState_held (s : State) (bk : BankId) (st : BankState) :
    (s.setBankState bk st).held = s.held := rfl
@[simp] theorem State.setBankState_freeCount (s : State) (bk : BankId) (st : BankState) :
    (s.setBankState bk st).freeCount = s.freeCount := rfl
@[simp] theorem State.setBankState_pending (s : State) (bk : BankId) (st : BankState) :
    (s.setBankState bk st).pending = s.pending := rfl

@[simp] theorem State.putBadge_floor (s : State) (n : BadgeNo) (lv : Level) :
    (s.putBadge n lv).floor = s.floor := rfl
@[simp] theorem State.putBadge_lines (s : State) (n : BadgeNo) (lv : Level) :
    (s.putBadge n lv).lines = s.lines := rfl
@[simp] theorem State.putBadge_tables (s : State) (n : BadgeNo) (lv : Level) :
    (s.putBadge n lv).tables =
      { s.tables with badges := putKey n.toNat lv s.tables.badges } := rfl
@[simp] theorem State.putBadge_map (s : State) (n : BadgeNo) (lv : Level) :
    (s.putBadge n lv).map = s.map := rfl
@[simp] theorem State.putBadge_params (s : State) (n : BadgeNo) (lv : Level) :
    (s.putBadge n lv).params = s.params := rfl
@[simp] theorem State.putBadge_link (s : State) (n : BadgeNo) (lv : Level) :
    (s.putBadge n lv).link = s.link := rfl
@[simp] theorem State.putBadge_mgmt (s : State) (n : BadgeNo) (lv : Level) :
    (s.putBadge n lv).mgmt = s.mgmt := rfl
@[simp] theorem State.putBadge_notices (s : State) (n : BadgeNo) (lv : Level) :
    (s.putBadge n lv).notices = s.notices := rfl
@[simp] theorem State.putBadge_poolEmpty (s : State) (n : BadgeNo) (lv : Level) :
    (s.putBadge n lv).poolEmpty = s.poolEmpty := rfl
@[simp] theorem State.putBadge_storeTime (s : State) (n : BadgeNo) (lv : Level) :
    (s.putBadge n lv).storeTime = s.storeTime := rfl
@[simp] theorem State.putBadge_prescaler (s : State) (n : BadgeNo) (lv : Level) :
    (s.putBadge n lv).prescaler = s.prescaler := rfl
@[simp] theorem State.putBadge_held (s : State) (n : BadgeNo) (lv : Level) :
    (s.putBadge n lv).held = s.held := rfl
@[simp] theorem State.putBadge_freeCount (s : State) (n : BadgeNo) (lv : Level) :
    (s.putBadge n lv).freeCount = s.freeCount := rfl
@[simp] theorem State.putBadge_pending (s : State) (n : BadgeNo) (lv : Level) :
    (s.putBadge n lv).pending = s.pending := rfl

/-! ## The floor -/

@[simp] theorem Floor.setLane_lanes (f : Floor) (l : LaneIx) (x : Lane) :
    (f.setLane l x).lanes = upd f.lanes l x := rfl
@[simp] theorem Floor.setLane_desk (f : Floor) (l : LaneIx) (x : Lane) :
    (f.setLane l x).desk = f.desk := rfl
@[simp] theorem Floor.setLane_free (f : Floor) (l : LaneIx) (x : Lane) :
    (f.setLane l x).free = f.free := rfl
@[simp] theorem Floor.setLane_chans (f : Floor) (l : LaneIx) (x : Lane) :
    (f.setLane l x).chans = f.chans := rfl
@[simp] theorem Floor.setLane_laneFlags (f : Floor) (l : LaneIx) (x : Lane) :
    (f.setLane l x).laneFlags = f.laneFlags := rfl
@[simp] theorem Floor.setLane_presence (f : Floor) (l : LaneIx) (x : Lane) :
    (f.setLane l x).presence = f.presence := rfl
@[simp] theorem Floor.setLane_releasePtr (f : Floor) (l : LaneIx) (x : Lane) :
    (f.setLane l x).releasePtr = f.releasePtr := rfl
@[simp] theorem Floor.setLane_touched (f : Floor) (l : LaneIx) (x : Lane) :
    (f.setLane l x).touched = f.touched := rfl

@[simp] theorem Floor.modLane_lanes (f : Floor) (l : LaneIx) (g : Lane → Lane) :
    (f.modLane l g).lanes = upd f.lanes l (g (f.lane l)) := rfl
@[simp] theorem Floor.modLane_desk (f : Floor) (l : LaneIx) (g : Lane → Lane) :
    (f.modLane l g).desk = f.desk := rfl
@[simp] theorem Floor.modLane_free (f : Floor) (l : LaneIx) (g : Lane → Lane) :
    (f.modLane l g).free = f.free := rfl
@[simp] theorem Floor.modLane_chans (f : Floor) (l : LaneIx) (g : Lane → Lane) :
    (f.modLane l g).chans = f.chans := rfl
@[simp] theorem Floor.modLane_laneFlags (f : Floor) (l : LaneIx) (g : Lane → Lane) :
    (f.modLane l g).laneFlags = f.laneFlags := rfl
@[simp] theorem Floor.modLane_presence (f : Floor) (l : LaneIx) (g : Lane → Lane) :
    (f.modLane l g).presence = f.presence := rfl
@[simp] theorem Floor.modLane_releasePtr (f : Floor) (l : LaneIx) (g : Lane → Lane) :
    (f.modLane l g).releasePtr = f.releasePtr := rfl
@[simp] theorem Floor.modLane_touched (f : Floor) (l : LaneIx) (g : Lane → Lane) :
    (f.modLane l g).touched = f.touched := rfl

@[simp] theorem Floor.touch_lanes (f : Floor) (l : LaneIx) : (f.touch l).lanes = f.lanes := rfl
@[simp] theorem Floor.touch_desk (f : Floor) (l : LaneIx) : (f.touch l).desk = f.desk := rfl
@[simp] theorem Floor.touch_free (f : Floor) (l : LaneIx) : (f.touch l).free = f.free := rfl
@[simp] theorem Floor.touch_chans (f : Floor) (l : LaneIx) : (f.touch l).chans = f.chans := rfl
@[simp] theorem Floor.touch_laneFlags (f : Floor) (l : LaneIx) :
    (f.touch l).laneFlags = f.laneFlags := rfl
@[simp] theorem Floor.touch_presence (f : Floor) (l : LaneIx) :
    (f.touch l).presence = f.presence := rfl
@[simp] theorem Floor.touch_releasePtr (f : Floor) (l : LaneIx) :
    (f.touch l).releasePtr = f.releasePtr := rfl
@[simp] theorem Floor.touch_touched (f : Floor) (l : LaneIx) :
    (f.touch l).touched = addLane f.touched l := rfl

@[simp] theorem Floor.flag_lanes (f : Floor) (l : LaneIx) : (f.flag l).lanes = f.lanes := rfl
@[simp] theorem Floor.flag_desk (f : Floor) (l : LaneIx) : (f.flag l).desk = f.desk := rfl
@[simp] theorem Floor.flag_free (f : Floor) (l : LaneIx) : (f.flag l).free = f.free := rfl
@[simp] theorem Floor.flag_chans (f : Floor) (l : LaneIx) : (f.flag l).chans = f.chans := rfl
@[simp] theorem Floor.flag_laneFlags (f : Floor) (l : LaneIx) :
    (f.flag l).laneFlags = addLane f.laneFlags l := rfl
@[simp] theorem Floor.flag_presence (f : Floor) (l : LaneIx) :
    (f.flag l).presence = f.presence := rfl
@[simp] theorem Floor.flag_releasePtr (f : Floor) (l : LaneIx) :
    (f.flag l).releasePtr = f.releasePtr := rfl
@[simp] theorem Floor.flag_touched (f : Floor) (l : LaneIx) :
    (f.flag l).touched = addLane f.touched l := rfl

@[simp] theorem Floor.giveBack_lanes (f : Floor) (b : BufId) : (f.giveBack b).lanes = f.lanes := rfl
@[simp] theorem Floor.giveBack_desk (f : Floor) (b : BufId) : (f.giveBack b).desk = f.desk := rfl
@[simp] theorem Floor.giveBack_free (f : Floor) (b : BufId) :
    (f.giveBack b).free = f.free ++ [b] := rfl
@[simp] theorem Floor.giveBack_chans (f : Floor) (b : BufId) : (f.giveBack b).chans = f.chans := rfl
@[simp] theorem Floor.giveBack_laneFlags (f : Floor) (b : BufId) :
    (f.giveBack b).laneFlags = f.laneFlags := rfl
@[simp] theorem Floor.giveBack_presence (f : Floor) (b : BufId) :
    (f.giveBack b).presence = f.presence := rfl
@[simp] theorem Floor.giveBack_releasePtr (f : Floor) (b : BufId) :
    (f.giveBack b).releasePtr = f.releasePtr := rfl
@[simp] theorem Floor.giveBack_touched (f : Floor) (b : BufId) :
    (f.giveBack b).touched = f.touched := rfl

@[simp] theorem Floor.freeDeferred_desk (f : Floor) (l : LaneIx) :
    (f.freeDeferred l).desk = f.desk := rfl
@[simp] theorem Floor.freeDeferred_free (f : Floor) (l : LaneIx) :
    (f.freeDeferred l).free = f.free ++ (f.lane l).deferred.map (·.buf) := rfl
@[simp] theorem Floor.freeDeferred_chans (f : Floor) (l : LaneIx) :
    (f.freeDeferred l).chans = f.chans := rfl
@[simp] theorem Floor.freeDeferred_laneFlags (f : Floor) (l : LaneIx) :
    (f.freeDeferred l).laneFlags = f.laneFlags := rfl
@[simp] theorem Floor.freeDeferred_presence (f : Floor) (l : LaneIx) :
    (f.freeDeferred l).presence = f.presence := rfl
@[simp] theorem Floor.freeDeferred_releasePtr (f : Floor) (l : LaneIx) :
    (f.freeDeferred l).releasePtr = f.releasePtr := rfl
@[simp] theorem Floor.freeDeferred_touched (f : Floor) (l : LaneIx) :
    (f.freeDeferred l).touched = f.touched := rfl

@[simp] theorem Floor.modChan_lanes (f : Floor) (c : ChanIx) (g : Channel → Channel) :
    (f.modChan c g).lanes = f.lanes := rfl
@[simp] theorem Floor.modChan_desk (f : Floor) (c : ChanIx) (g : Channel → Channel) :
    (f.modChan c g).desk = f.desk := rfl
@[simp] theorem Floor.modChan_free (f : Floor) (c : ChanIx) (g : Channel → Channel) :
    (f.modChan c g).free = f.free := rfl
@[simp] theorem Floor.modChan_chans (f : Floor) (c : ChanIx) (g : Channel → Channel) :
    (f.modChan c g).chans = upd f.chans c (g f.chans[c]) := rfl
@[simp] theorem Floor.modChan_laneFlags (f : Floor) (c : ChanIx) (g : Channel → Channel) :
    (f.modChan c g).laneFlags = f.laneFlags := rfl
@[simp] theorem Floor.modChan_presence (f : Floor) (c : ChanIx) (g : Channel → Channel) :
    (f.modChan c g).presence = f.presence := rfl
@[simp] theorem Floor.modChan_releasePtr (f : Floor) (c : ChanIx) (g : Channel → Channel) :
    (f.modChan c g).releasePtr = f.releasePtr := rfl
@[simp] theorem Floor.modChan_touched (f : Floor) (c : ChanIx) (g : Channel → Channel) :
    (f.modChan c g).touched = f.touched := rfl

@[simp] theorem Floor.countAt_desk (f : Floor) (l : LaneIx) (g : LaneCounters → LaneCounters) :
    (f.countAt l g).desk = f.desk := rfl
@[simp] theorem Floor.countAt_free (f : Floor) (l : LaneIx) (g : LaneCounters → LaneCounters) :
    (f.countAt l g).free = f.free := rfl
@[simp] theorem Floor.countAt_chans (f : Floor) (l : LaneIx) (g : LaneCounters → LaneCounters) :
    (f.countAt l g).chans = f.chans := rfl
@[simp] theorem Floor.countAt_laneFlags (f : Floor) (l : LaneIx) (g : LaneCounters → LaneCounters) :
    (f.countAt l g).laneFlags = f.laneFlags := rfl
@[simp] theorem Floor.countAt_presence (f : Floor) (l : LaneIx) (g : LaneCounters → LaneCounters) :
    (f.countAt l g).presence = f.presence := rfl
@[simp] theorem Floor.countAt_releasePtr (f : Floor) (l : LaneIx) (g : LaneCounters → LaneCounters) :
    (f.countAt l g).releasePtr = f.releasePtr := rfl
@[simp] theorem Floor.countAt_touched (f : Floor) (l : LaneIx) (g : LaneCounters → LaneCounters) :
    (f.countAt l g).touched = f.touched := rfl

@[simp] theorem Floor.takeSession_desk (e : Env) (l : LaneIx) (n : BadgeNo) (lv : Level) (f : Floor) :
    (f.takeSession e l n lv).desk = f.desk := rfl
@[simp] theorem Floor.takeSession_free (e : Env) (l : LaneIx) (n : BadgeNo) (lv : Level) (f : Floor) :
    (f.takeSession e l n lv).free = f.free := rfl
@[simp] theorem Floor.takeSession_chans (e : Env) (l : LaneIx) (n : BadgeNo) (lv : Level) (f : Floor) :
    (f.takeSession e l n lv).chans = f.chans := rfl
@[simp] theorem Floor.takeSession_laneFlags (e : Env) (l : LaneIx) (n : BadgeNo) (lv : Level) (f : Floor) :
    (f.takeSession e l n lv).laneFlags = addLane f.laneFlags l := rfl
@[simp] theorem Floor.takeSession_presence (e : Env) (l : LaneIx) (n : BadgeNo) (lv : Level) (f : Floor) :
    (f.takeSession e l n lv).presence = f.presence := rfl
@[simp] theorem Floor.takeSession_releasePtr (e : Env) (l : LaneIx) (n : BadgeNo) (lv : Level) (f : Floor) :
    (f.takeSession e l n lv).releasePtr = f.releasePtr := rfl
@[simp] theorem Floor.takeSession_touched (e : Env) (l : LaneIx) (n : BadgeNo) (lv : Level) (f : Floor) :
    (f.takeSession e l n lv).touched = addLane f.touched l := rfl

/-! ## The desk -/

@[simp] theorem Desk.modRec_consoles (d : Desk) (k : SlotIx) (g : Record → Record) :
    (d.modRec k g).consoles = d.consoles := rfl
@[simp] theorem Desk.modRec_freeOrder (d : Desk) (k : SlotIx) (g : Record → Record) :
    (d.modRec k g).freeOrder = d.freeOrder := rfl
@[simp] theorem Desk.modRec_unqueuedRaises (d : Desk) (k : SlotIx) (g : Record → Record) :
    (d.modRec k g).unqueuedRaises = d.unqueuedRaises := rfl
@[simp] theorem Desk.modRec_offerExpiries (d : Desk) (k : SlotIx) (g : Record → Record) :
    (d.modRec k g).offerExpiries = d.offerExpiries := rfl
@[simp] theorem Desk.modRec_claimRecalls (d : Desk) (k : SlotIx) (g : Record → Record) :
    (d.modRec k g).claimRecalls = d.claimRecalls := rfl
@[simp] theorem Desk.modRec_dispatchDue (d : Desk) (k : SlotIx) (g : Record → Record) :
    (d.modRec k g).dispatchDue = d.dispatchDue := rfl
@[simp] theorem Desk.modRec_freedSlots (d : Desk) (k : SlotIx) (g : Record → Record) :
    (d.modRec k g).freedSlots = d.freedSlots := rfl

@[simp] theorem Desk.modConsole_slots (d : Desk) (c : ConsoleIx) (g : Console → Console) :
    (d.modConsole c g).slots = d.slots := rfl
@[simp] theorem Desk.modConsole_freeOrder (d : Desk) (c : ConsoleIx) (g : Console → Console) :
    (d.modConsole c g).freeOrder = d.freeOrder := rfl
@[simp] theorem Desk.modConsole_unqueuedRaises (d : Desk) (c : ConsoleIx) (g : Console → Console) :
    (d.modConsole c g).unqueuedRaises = d.unqueuedRaises := rfl
@[simp] theorem Desk.modConsole_offerExpiries (d : Desk) (c : ConsoleIx) (g : Console → Console) :
    (d.modConsole c g).offerExpiries = d.offerExpiries := rfl
@[simp] theorem Desk.modConsole_claimRecalls (d : Desk) (c : ConsoleIx) (g : Console → Console) :
    (d.modConsole c g).claimRecalls = d.claimRecalls := rfl
@[simp] theorem Desk.modConsole_dispatchDue (d : Desk) (c : ConsoleIx) (g : Console → Console) :
    (d.modConsole c g).dispatchDue = d.dispatchDue := rfl
@[simp] theorem Desk.modConsole_freedSlots (d : Desk) (c : ConsoleIx) (g : Console → Console) :
    (d.modConsole c g).freedSlots = d.freedSlots := rfl

@[simp] theorem Desk.mark_slots (d : Desk) (c : ConsoleIx) (cause : Cause) :
    (d.mark c cause).slots = d.slots := rfl
@[simp] theorem Desk.mark_freeOrder (d : Desk) (c : ConsoleIx) (cause : Cause) :
    (d.mark c cause).freeOrder = d.freeOrder := rfl
@[simp] theorem Desk.mark_unqueuedRaises (d : Desk) (c : ConsoleIx) (cause : Cause) :
    (d.mark c cause).unqueuedRaises = d.unqueuedRaises := rfl
@[simp] theorem Desk.mark_offerExpiries (d : Desk) (c : ConsoleIx) (cause : Cause) :
    (d.mark c cause).offerExpiries = d.offerExpiries := rfl
@[simp] theorem Desk.mark_claimRecalls (d : Desk) (c : ConsoleIx) (cause : Cause) :
    (d.mark c cause).claimRecalls = d.claimRecalls := rfl
@[simp] theorem Desk.mark_dispatchDue (d : Desk) (c : ConsoleIx) (cause : Cause) :
    (d.mark c cause).dispatchDue = d.dispatchDue := rfl
@[simp] theorem Desk.mark_freedSlots (d : Desk) (c : ConsoleIx) (cause : Cause) :
    (d.mark c cause).freedSlots = d.freedSlots := rfl

@[simp] theorem Desk.toFree_slots (d : Desk) (c : ConsoleIx) : (d.toFree c).slots = d.slots := rfl
@[simp] theorem Desk.toFree_freeOrder (d : Desk) (c : ConsoleIx) :
    (d.toFree c).freeOrder = d.freeOrder ++ [c] := rfl
@[simp] theorem Desk.toFree_unqueuedRaises (d : Desk) (c : ConsoleIx) :
    (d.toFree c).unqueuedRaises = d.unqueuedRaises := rfl
@[simp] theorem Desk.toFree_offerExpiries (d : Desk) (c : ConsoleIx) :
    (d.toFree c).offerExpiries = d.offerExpiries := rfl
@[simp] theorem Desk.toFree_claimRecalls (d : Desk) (c : ConsoleIx) :
    (d.toFree c).claimRecalls = d.claimRecalls := rfl
@[simp] theorem Desk.toFree_dispatchDue (d : Desk) (c : ConsoleIx) :
    (d.toFree c).dispatchDue = true := rfl
@[simp] theorem Desk.toFree_freedSlots (d : Desk) (c : ConsoleIx) :
    (d.toFree c).freedSlots = d.freedSlots := rfl

@[simp] theorem Desk.freeWith_slots (d : Desk) (c : ConsoleIx) (cause : Cause) :
    (d.freeWith c cause).slots = d.slots := rfl
@[simp] theorem Desk.freeWith_freeOrder (d : Desk) (c : ConsoleIx) (cause : Cause) :
    (d.freeWith c cause).freeOrder = d.freeOrder ++ [c] := rfl
@[simp] theorem Desk.freeWith_unqueuedRaises (d : Desk) (c : ConsoleIx) (cause : Cause) :
    (d.freeWith c cause).unqueuedRaises = d.unqueuedRaises := rfl
@[simp] theorem Desk.freeWith_offerExpiries (d : Desk) (c : ConsoleIx) (cause : Cause) :
    (d.freeWith c cause).offerExpiries = d.offerExpiries := rfl
@[simp] theorem Desk.freeWith_claimRecalls (d : Desk) (c : ConsoleIx) (cause : Cause) :
    (d.freeWith c cause).claimRecalls = d.claimRecalls := rfl
@[simp] theorem Desk.freeWith_dispatchDue (d : Desk) (c : ConsoleIx) (cause : Cause) :
    (d.freeWith c cause).dispatchDue = true := rfl
@[simp] theorem Desk.freeWith_freedSlots (d : Desk) (c : ConsoleIx) (cause : Cause) :
    (d.freeWith c cause).freedSlots = d.freedSlots := rfl

@[simp] theorem Desk.freeUnsent_slots (d : Desk) (c : ConsoleIx) :
    (d.freeUnsent c).slots = d.slots := rfl
@[simp] theorem Desk.freeUnsent_freeOrder (d : Desk) (c : ConsoleIx) :
    (d.freeUnsent c).freeOrder = d.freeOrder ++ [c] := rfl
@[simp] theorem Desk.freeUnsent_unqueuedRaises (d : Desk) (c : ConsoleIx) :
    (d.freeUnsent c).unqueuedRaises = d.unqueuedRaises := rfl
@[simp] theorem Desk.freeUnsent_offerExpiries (d : Desk) (c : ConsoleIx) :
    (d.freeUnsent c).offerExpiries = d.offerExpiries := rfl
@[simp] theorem Desk.freeUnsent_claimRecalls (d : Desk) (c : ConsoleIx) :
    (d.freeUnsent c).claimRecalls = d.claimRecalls := rfl
@[simp] theorem Desk.freeUnsent_dispatchDue (d : Desk) (c : ConsoleIx) :
    (d.freeUnsent c).dispatchDue = true := rfl
@[simp] theorem Desk.freeUnsent_freedSlots (d : Desk) (c : ConsoleIx) :
    (d.freeUnsent c).freedSlots = d.freedSlots := rfl

@[simp] theorem Desk.offer_freeOrder (d : Desk) (k : SlotIx) (c : ConsoleIx) :
    (d.offer k c).freeOrder = d.freeOrder.filter (· != c) := rfl
@[simp] theorem Desk.offer_unqueuedRaises (d : Desk) (k : SlotIx) (c : ConsoleIx) :
    (d.offer k c).unqueuedRaises = d.unqueuedRaises := rfl
@[simp] theorem Desk.offer_offerExpiries (d : Desk) (k : SlotIx) (c : ConsoleIx) :
    (d.offer k c).offerExpiries = d.offerExpiries := rfl
@[simp] theorem Desk.offer_claimRecalls (d : Desk) (k : SlotIx) (c : ConsoleIx) :
    (d.offer k c).claimRecalls = d.claimRecalls := rfl
@[simp] theorem Desk.offer_dispatchDue (d : Desk) (k : SlotIx) (c : ConsoleIx) :
    (d.offer k c).dispatchDue = d.dispatchDue := rfl
@[simp] theorem Desk.offer_freedSlots (d : Desk) (k : SlotIx) (c : ConsoleIx) :
    (d.offer k c).freedSlots = d.freedSlots := rfl

/-! ## Reading a lane, a record, a console or a line after an update -/

@[simp] theorem Floor.lane_setLane_self (f : Floor) (l : LaneIx) (x : Lane) :
    (f.setLane l x).lane l = x := upd_get_self ..

theorem Floor.lane_setLane_ne (f : Floor) (l k : LaneIx) (x : Lane) (h : k ≠ l) :
    (f.setLane l x).lane k = f.lane k := upd_get_ne _ _ _ _ h

@[simp] theorem Floor.lane_modLane_self (f : Floor) (l : LaneIx) (g : Lane → Lane) :
    (f.modLane l g).lane l = g (f.lane l) := upd_get_self ..

theorem Floor.lane_modLane_ne (f : Floor) (l k : LaneIx) (g : Lane → Lane) (h : k ≠ l) :
    (f.modLane l g).lane k = f.lane k := upd_get_ne _ _ _ _ h

@[simp] theorem Floor.lane_touch (f : Floor) (l k : LaneIx) : (f.touch l).lane k = f.lane k := rfl
@[simp] theorem Floor.lane_flag (f : Floor) (l k : LaneIx) : (f.flag l).lane k = f.lane k := rfl
@[simp] theorem Floor.lane_giveBack (f : Floor) (b : BufId) (k : LaneIx) :
    (f.giveBack b).lane k = f.lane k := rfl
@[simp] theorem Floor.lane_modChan (f : Floor) (c : ChanIx) (g : Channel → Channel) (k : LaneIx) :
    (f.modChan c g).lane k = f.lane k := rfl
@[simp] theorem Floor.lane_withDesk (f : Floor) (d : Desk) (k : LaneIx) :
    Floor.lane { f with desk := d } k = f.lane k := rfl

@[simp] theorem Desk.recAt_modRec_self (d : Desk) (k : SlotIx) (g : Record → Record) :
    (d.modRec k g).recAt k = (d.recAt k).map g := by
  simp [Desk.modRec, Desk.recAt, upd]

theorem Desk.recAt_modRec_ne (d : Desk) (k j : SlotIx) (g : Record → Record) (h : j ≠ k) :
    (d.modRec k g).recAt j = d.recAt j := by
  show ((upd d.slots k _)[j]).rec? = _
  rw [upd_get_ne _ _ _ _ h]
  rfl

@[simp] theorem Desk.recAt_modConsole (d : Desk) (c : ConsoleIx) (g : Console → Console) (k : SlotIx) :
    (d.modConsole c g).recAt k = d.recAt k := rfl

@[simp] theorem Desk.console_modConsole_self (d : Desk) (c : ConsoleIx) (g : Console → Console) :
    (d.modConsole c g).console c = g (d.console c) := upd_get_self ..

theorem Desk.console_modConsole_ne (d : Desk) (c o : ConsoleIx) (g : Console → Console) (h : o ≠ c) :
    (d.modConsole c g).console o = d.console o := upd_get_ne _ _ _ _ h

@[simp] theorem Desk.console_modRec (d : Desk) (k : SlotIx) (g : Record → Record) (c : ConsoleIx) :
    (d.modRec k g).console c = d.console c := rfl

@[simp] theorem State.line_modLine_self (s : State) (n : LineIx) (g : Line → Line) :
    (s.modLine n g).line n = g (s.line n) := upd_get_self ..

theorem State.line_modLine_ne (s : State) (n m : LineIx) (g : Line → Line) (h : m ≠ n) :
    (s.modLine n g).line m = s.line m := upd_get_ne _ _ _ _ h

end Sys2Proof.Machine
end

