-- ==== Sys2Proof/Laws/Floor.lean ====
section
/-! SUPPORT. What the shared operations of the queue and the reasons leave unchanged: the frame pool, the
channels and the counters beside them, and all of a lane but its raised set, HELP sources, call input and
directive word. -/

namespace Sys2Proof.Machine

/-- What raises, resolutions, insertions and dispatch never touch on the floor. -/
def Floor.rest (f : Floor) : List BufId × Vector Channel 3 × PresenceCounters × LaneIx :=
  (f.free, f.chans, f.presence, f.releasePtr)

/-- What raises, resolutions, insertions and derivations never touch in a lane. -/
def Lane.core (x : Lane) : Lane :=
  { x with raised := Vector.replicate 10 none, help := {}, call := {}, word := {} }

/-- The whole floor as those two see it. -/
def Floor.still (f : Floor) : (List BufId × Vector Channel 3 × PresenceCounters × LaneIx) ×
    (LaneIx → Lane) :=
  (f.rest, fun k => (f.lane k).core)

theorem Floor.still_modLane (f : Floor) (l : LaneIx) (g : Lane → Lane)
    (h : (g (f.lane l)).core = (f.lane l).core) : (f.modLane l g).still = f.still := by
  refine Prod.ext rfl (funext fun k => ?_)
  show ((f.modLane l g).lane k).core = (f.lane k).core
  by_cases hk : k = l
  · subst hk
    rw [Floor.lane_modLane_self]
    exact h
  · rw [Floor.lane_modLane_ne f l k g hk]

theorem Floor.still_withDesk (f : Floor) (d : Desk) :
    Floor.still { f with desk := d } = f.still := rfl

theorem Floor.still_flag (f : Floor) (l : LaneIx) : (f.flag l).still = f.still := rfl

theorem Floor.still_touch (f : Floor) (l : LaneIx) : (f.touch l).still = f.still := rfl

theorem Lane.core_setEntry (x : Lane) (r : Reason) (en : Option Raised) :
    (x.setEntry r en).core = x.core := rfl

theorem Lane.core_without (x : Lane) (r : Reason) : (x.without r).core = x.core := by
  unfold Lane.without
  split <;> rfl

theorem Lane.core_derive (force : Bool) (x : Lane) : (x.derive force).core = x.core := by
  simp only [Lane.derive]
  split <;> rfl

theorem Floor.still_insertBest (p : Params) (f : Floor) : (Floor.insertBest p f).still = f.still := by
  unfold Floor.insertBest
  split
  · rfl
  · split
    · rfl
    · exact (Floor.still_withDesk _ _).trans (Floor.still_modLane f _ _ rfl)

theorem Floor.still_insertions (p : Params) (f : Floor) : (f.insertions p).still = f.still :=
  (Floor.still_withDesk _ _).trans (times_same (Floor.still_insertBest p) _ f)

theorem Floor.still_merge (l : LaneIx) (r : Reason) (en : Raised) (detail : Option Detail)
    (src : Option HelpSource) (f : Floor) : (f.merge l r en detail src).still = f.still := by
  have h : ((f.modLane l (fun x =>
      { x.setEntry r (some { en with detail := detail.or en.detail }) with
          help := x.help.add src })).flag l).still = f.still :=
    (Floor.still_flag _ _).trans (Floor.still_modLane f l _ rfl)
  simp only [Floor.merge]
  split
  · split
    · exact h
    · exact h
  · exact h

theorem Floor.still_raiseNew (e : Env) (l : LaneIx) (r : Reason) (detail : Option Detail)
    (src : Option HelpSource) (f : Floor) : (f.raiseNew e l r detail src).still = f.still := by
  have h (g : Lane → Lane) (hg : ∀ x, (g x).core = x.core) :
      ((f.modLane l g).flag l).still = f.still :=
    (Floor.still_flag _ _).trans (Floor.still_modLane f l g (hg _))
  simp only [Floor.raiseNew]
  split
  · exact (Floor.still_withDesk _ _).trans (h _ (fun _ => rfl))
  · exact (Floor.still_withDesk _ _).trans (h _ (fun _ => rfl))

/-- A raise leaves the frame pool, the channels and the core of every lane unchanged. -/
theorem Floor.still_raise (e : Env) (l : LaneIx) (r : Reason) (detail : Option Detail)
    (src : Option HelpSource) (f : Floor) : (f.raise e l r detail src).still = f.still := by
  simp only [Floor.raise]
  split
  · split
    · exact (Floor.still_merge ..).trans (Floor.still_insertions _ _)
    · exact (Floor.still_raiseNew ..).trans (Floor.still_insertions _ _)
  · exact Floor.still_insertions _ _

/-- A resolution or removal leaves the frame pool, the channels and the core of every lane unchanged. -/
theorem Floor.still_takeOut (cause : Cause) (l : LaneIx) (r : Reason) (f : Floor) :
    (f.takeOut cause l r).still = f.still := by
  have h : ((f.modLane l (fun x => x.without r)).flag l).still = f.still :=
    (Floor.still_flag _ _).trans (Floor.still_modLane f l _ (Lane.core_without _ _))
  simp only [Floor.takeOut]
  split
  · rfl
  · split
    · split
      · exact h
      · exact h
    · exact h

theorem Floor.still_resolve (l : LaneIx) (r : Reason) (f : Floor) : (f.resolve l r).still = f.still :=
  Floor.still_takeOut ..

theorem Floor.still_removeAll (l : LaneIx) (rs : List Reason) (f : Floor) :
    (f.removeAll l rs).still = f.still :=
  foldl_same (fun f r => Floor.still_takeOut .laneEnded l r f) _ f

theorem Floor.still_dispatchIfDue (zones : Vector LaneSet 4) (f : Floor) :
    (f.dispatchIfDue zones).still = f.still := by
  unfold Floor.dispatchIfDue
  split <;> rfl

theorem Floor.still_deriveTouched (f : Floor) : f.deriveTouched.still = f.still := by
  refine Eq.trans (b := Floor.still (allLanes.foldl (fun g l =>
    if hasLane f.touched l then g.modLane l (Lane.derive false) else g) f)) rfl ?_
  refine foldl_same (fun g l => ?_) _ f
  split
  · exact Floor.still_modLane _ _ _ (Lane.core_derive _ _)
  · rfl

/-- The end of an event leaves the frame pool, the channels and the core of every lane unchanged. -/
theorem Floor.still_settle (e : Env) (f : Floor) : (f.settle e).still = f.still :=
  (Floor.still_deriveTouched _).trans
    ((Floor.still_dispatchIfDue _ _).trans (Floor.still_insertions _ _))

/-- What two floors that agree so far share. -/
theorem Floor.of_still {f g : Floor} (h : f.still = g.still) :
    f.free = g.free ∧ f.chans = g.chans ∧ f.presence = g.presence ∧ f.releasePtr = g.releasePtr ∧
      ∀ k, (f.lane k).core = (g.lane k).core := by
  have h1 : f.rest = g.rest := congrArg Prod.fst h
  have h2 := congrArg Prod.snd h
  exact ⟨congrArg Prod.fst h1, congrArg (·.2.1) h1, congrArg (·.2.2.1) h1, congrArg (·.2.2.2) h1,
    fun k => congrFun h2 k⟩

/-- A lane's legality is a matter of its core. -/
theorem Lane.legal_core (x : Lane) : x.core.legal ↔ x.legal := Iff.rfl

theorem Lane.legal_of_core {x y : Lane} (h : x.core = y.core) (hx : x.legal) : y.legal :=
  (Lane.legal_core y).1 (h ▸ (Lane.legal_core x).2 hx)

end Sys2Proof.Machine
end

