-- ==== Sys2Proof/Laws/Deferred.lean ====
section
/-! SUPPORT. What processing a frame can do to the deferred lists and the channel queues: each list is as it
was, or empty (R40, R44), and the one change to a queue is the handing on of the frame's own event (R164).
From this a deferred pass ends after as many frames as its list held (R41). -/

namespace Sys2Proof.Machine

/-- Every deferred list is as it was, or empty, and every channel is as it was. -/
structure Shed (f g : Floor) : Prop where
  all : ∀ k, (g.lane k).deferred = (f.lane k).deferred ∨ (g.lane k).deferred = []
  chans : g.chans = f.chans

theorem Shed.refl (f : Floor) : Shed f f := ⟨fun _ => .inl rfl, rfl⟩

theorem Shed.trans {f g h : Floor} (a : Shed f g) (b : Shed g h) : Shed f h := by
  refine ⟨fun k => ?_, b.chans.trans a.chans⟩
  rcases b.all k with e | e
  · rw [e]
    exact a.all k
  · exact .inr e

theorem Shed.still {f g : Floor} (h : g.still = f.still) : Shed f g :=
  ⟨fun k => .inl (show (g.lane k).core.deferred = (f.lane k).core.deferred by
    rw [(Floor.of_still h).2.2.2.2 k]), (Floor.of_still h).2.1⟩

theorem Shed.lanes {f g : Floor} (h : g.lanes = f.lanes) (hc : g.chans = f.chans) : Shed f g :=
  ⟨fun k => .inl (show (g.lanes[k]).deferred = (f.lanes[k]).deferred by rw [h]), hc⟩

theorem Shed.modLane (f : Floor) (l : LaneIx) (g : Lane → Lane)
    (h : ∀ x, (g x).deferred = x.deferred ∨ (g x).deferred = []) : Shed f (f.modLane l g) := by
  refine ⟨fun k => ?_, rfl⟩
  by_cases hk : k = l
  · subst hk
    rw [Floor.lane_modLane_self]
    exact h _
  · rw [Floor.lane_modLane_ne f l k g hk]
    exact .inl rfl

theorem Shed.modLane_same (f : Floor) (l : LaneIx) (g : Lane → Lane)
    (h : ∀ x, (g x).deferred = x.deferred) : Shed f (f.modLane l g) :=
  Shed.modLane f l g (fun x => .inl (h x))

theorem Shed.raise (e : Env) (l : LaneIx) (r : Reason) (detail : Option Detail)
    (src : Option HelpSource) (f : Floor) : Shed f (f.raise e l r detail src) :=
  .still (Floor.still_raise ..)

theorem Shed.resolve (l : LaneIx) (r : Reason) (f : Floor) : Shed f (f.resolve l r) :=
  .still (Floor.still_resolve ..)

theorem Shed.enter (f : Floor) (l : LaneIx) (st : LaneState) : Shed f (f.enter l st) := by
  have h : Shed f (f.setLane l { f.lane l with state := st }) :=
    Shed.modLane_same f l (fun x => { x with state := st }) (fun _ => rfl)
  simp only [Floor.enter]
  split <;> exact h.trans (.lanes rfl rfl)

theorem Shed.freeDeferred (f : Floor) (l : LaneIx) : Shed f (f.freeDeferred l) :=
  (Shed.modLane f l
    (fun x => { x with deferred := []
                       counters := { x.counters with
                         freed := bump x.counters.freed x.deferred.length } })
    (fun _ => .inr rfl)).trans (.lanes rfl rfl)

theorem Shed.enterClosed (f : Floor) (l : LaneIx) : Shed f (f.enterClosed l) := by
  simp only [Floor.enterClosed]
  exact ((Shed.still (Floor.still_removeAll l _ f)).trans (Shed.freeDeferred _ l)).trans
    ((Shed.enter _ l _).trans (.lanes rfl rfl))

theorem Shed.endTxn (f : Floor) (l : LaneIx) : Shed f (f.endTxn l).1 := by
  have h := (((Shed.still (Floor.still_removeAll l (f.lane l).ending f)).trans
    (Shed.modLane_same _ l (fun x => { x with bagSettle := none, inactivity := none })
      (fun _ => rfl))).trans (Shed.freeDeferred _ l)).trans
    (Shed.modLane_same _ l (fun x => { x with stack := [], pinned := none }) (fun _ => rfl))
  simp only [Floor.endTxn]
  split
  · exact h.trans (Shed.enterClosed _ l)
  · exact h.trans (Shed.enter _ l _)

theorem Shed.takeSession (e : Env) (l : LaneIx) (n : BadgeNo) (lv : Level) (f : Floor) :
    Shed f (f.takeSession e l n lv) :=
  (Shed.modLane_same f l
    (fun x => { x with session := some { badge := n, level := lv, opened := e.now }
                       presence := some e.params.presence }) (fun _ => rfl)).trans (.lanes rfl rfl)

theorem Shed.openSession (e : Env) (l : LaneIx) (n : BadgeNo) (lv : Level) (f : Floor) :
    Shed f (f.openSession e l n lv) :=
  ((Shed.takeSession e l n lv f).trans
    (Shed.modLane_same _ l
      (fun x => { x with inactivity := none, refusal := none, refusalTimer := none })
      (fun _ => rfl))).trans ((Shed.resolve l .idle _).trans (.lanes rfl rfl))

theorem Shed.closeSession (p : Params) (l : LaneIx) (f : Floor) : Shed f (f.closeSession p l) := by
  simp only [Floor.closeSession]
  split
  · exact (Shed.modLane_same f l
      (fun x => { x with session := none, presence := none, refusal := none, refusalTimer := none
                         inactivity := if x.state.inTxn then some p.inactivity else x.inactivity })
      (fun _ => rfl)).trans (.lanes rfl rfl)
  · exact .refl f

/-! ## A frame in processing -/

/-- A frame in processing has changed the deferred lists no further than that. -/
def Proc.Sheds (f : Floor) (p : Proc) : Prop := Shed f p.floor

theorem Proc.Sheds.onLane {f : Floor} {p : Proc} (h : p.Sheds f) (l : LaneIx) (g : Lane → Lane)
    (hg : ∀ x, (g x).deferred = x.deferred) : (p.onLane l g).Sheds f :=
  Shed.trans h (Shed.modLane_same _ l g hg)

theorem Proc.Sheds.raise {f : Floor} {p : Proc} (h : p.Sheds f) (e : Env) (l : LaneIx) (r : Reason)
    (detail : Option Detail) (src : Option HelpSource) : (p.raise e l r detail src).Sheds f :=
  Shed.trans h (Shed.raise ..)

theorem Proc.Sheds.resolve {f : Floor} {p : Proc} (h : p.Sheds f) (l : LaneIx) (r : Reason) :
    (p.resolve l r).Sheds f := by
  unfold Proc.resolve
  split
  · exact Shed.trans h (Shed.resolve ..)
  · exact h

theorem Proc.Sheds.report {f : Floor} {p : Proc} (h : p.Sheds f) (a : AnnoSet) :
    (p.report a).Sheds f := h

theorem Proc.Sheds.note {f : Floor} {p : Proc} (h : p.Sheds f) (a : AnnoSet) : (p.note a).Sheds f := h

theorem Proc.Sheds.enter {f : Floor} {p : Proc} (h : p.Sheds f) (l : LaneIx) (st : LaneState) :
    (p.onFloor (fun f => f.enter l st)).Sheds f :=
  Shed.trans h (Shed.enter ..)

theorem Proc.Sheds.endTxn {f : Floor} {p : Proc} (h : p.Sheds f) (l : LaneIx) :
    (p.endTxn l).Sheds f := by
  simp only [Proc.endTxn]
  split <;> exact Shed.trans h (Shed.endTxn _ l)

theorem Proc.Sheds.item {f : Floor} {p : Proc} (h : p.Sheds f) (e : Env) (l : LaneIx) (i : ItemFrame) :
    (p.item e l i).Sheds f := by
  simp only [Proc.item]
  split
  · exact (h.report _).raise ..
  · generalize lookupItem e.tables (p.floor.lane l).pinned i.article i.group = fl
    have h2 : (if fl.unknown = true then p.note annUnknownGroup else p).Sheds f := by
      split <;> exact h
    revert h2
    generalize (if fl.unknown = true then p.note annUnknownGroup else p) = q
    intro h2
    have h3 : (if (fl.attendant || fl.unknown) = true then
        q.raise e l .watch (some (.article i.article)) none else q).Sheds f := by
      split
      · exact h2.raise ..
      · exact h2
    revert h3
    generalize (if (fl.attendant || fl.unknown) = true then
      q.raise e l .watch (some (.article i.article)) none else q) = q2
    intro h3
    have h4 := h3.onLane l (Lane.addItem e.params i fl) (by intro; rfl)
    have h5 : ((q2.onLane l (Lane.addItem e.params i fl)).checkAge e l i fl).Sheds f := by
      unfold Proc.checkAge
      split
      · exact (h4.onLane l _ (by intro; rfl)).raise ..
      · exact h4
    unfold Proc.checkValue
    dsimp only
    split
    · exact (h5.raise ..).onLane l _ (by intro; rfl)
    · exact h5

theorem Proc.Sheds.itemFrame {f : Floor} {p : Proc} (h : p.Sheds f) (e : Env) (l : LaneIx)
    (i : ItemFrame) : (p.itemFrame e l i).Sheds f := by
  unfold Proc.itemFrame
  split
  · exact h
  · exact ((h.onLane l (Lane.startTxn e) (by intro; rfl)).enter l .scanning).item e l i
  all_goals first | exact h.item e l i | exact (h.report _).raise ..

theorem Proc.Sheds.bag {f : Floor} {p : Proc} (h : p.Sheds f) (e : Env) (l : LaneIx) (m : Nat)
    (stable : Bool) : (p.bag e l m stable).Sheds f := by
  unfold Proc.bag
  dsimp only
  split
  · have h1 := h.onLane l (fun x => { x with totals := { x.totals with bag := some m } })
      (by intro; rfl)
    revert h1
    generalize p.onLane l (fun x => { x with totals := { x.totals with bag := some m } }) = q
    intro h1
    have h2 : (if (p.floor.lane l).state.inTxn = true then q.reconcile e l m else q).Sheds f := by
      split
      · simp only [Proc.reconcile]
        split
        · split
          · exact (h1.onLane l _ (by intro; rfl)).resolve ..
          · exact h1
        · split
          · exact h1.resolve ..
          · exact h1.raise ..
      · exact h1
    split <;> exact h2
  · exact h

theorem Proc.Sheds.badge {f : Floor} {p : Proc} (h : p.Sheds f) (e : Env) (l : LaneIx) (n : BadgeNo) :
    (p.badge e l n).Sheds f := by
  have hr : (p.refuseBadge l).Sheds f :=
    Shed.trans (h.onLane l (Lane.refuseWith .badgeRefused) (by intro; rfl)) (.lanes rfl rfl)
  unfold Proc.badge
  split
  · exact hr
  · split
    · exact Shed.trans h (Shed.openSession ..)
    · split
      · exact Shed.trans h (Shed.closeSession ..)
      · split
        · exact Shed.trans h (Shed.takeSession ..)
        · exact hr

theorem Proc.Sheds.perform {f : Floor} {p : Proc} (h : p.Sheds f) (e : Env) (l : LaneIx) (a : Action) :
    (p.perform e l a).Sheds f := by
  cases a with
  | ack => exact ((((h.resolve ..).resolve ..).resolve ..).resolve ..).resolve ..
  | voidLast =>
    unfold Proc.perform
    dsimp only
    refine Proc.Sheds.resolve ?_ ..
    have h1 := h.onLane l (Lane.voidItem e.params) (fun x => by unfold Lane.voidItem; split <;> rfl)
    split
    · exact h1.resolve ..
    · exact h1
  | approveWeight => exact (h.onLane l _ (by intro; rfl)).resolve ..
  | approveItem => exact h.resolve ..
  | approveAge => exact (h.onLane l _ (by intro; rfl)).resolve ..
  | approveValue => exact (h.onLane l _ (by intro; rfl)).resolve ..
  | cancel => exact h.endTxn l

theorem Proc.Sheds.override {f : Floor} {p : Proc} (h : p.Sheds f) (e : Env) (l : LaneIx) (a : Action) :
    (p.override e l a).Sheds f := by
  have hr {p : Proc} (h : p.Sheds f) : (p.refuseOverride e l).Sheds f :=
    Shed.trans (h.onLane l (Lane.restartPresence e.params) (by intro; rfl)) (.lanes rfl rfl)
  unfold Proc.override
  split
  · exact Shed.trans (h.onLane l (Lane.refuseWith .badgeRequired) (by intro; rfl)) (.lanes rfl rfl)
  · split
    · exact hr (h.onLane l _ (by intro; rfl))
    · split
      · exact ((h.perform e l a).onLane l _ (by intro; rfl)).note _
      · exact hr h

/-- The effect of a frame adds to no deferred list. -/
theorem Proc.Sheds.effect {f : Floor} {p : Proc} (h : p.Sheds f) (e : Env) (l : LaneIx) (b : LaneFrame) :
    (p.effect e l b).Sheds f := by
  cases b with
  | scan => exact h.itemFrame ..
  | weigh => exact h.itemFrame ..
  | bag => exact h.bag ..
  | remove =>
    unfold Proc.effect Proc.remove
    dsimp only
    split <;> first | exact h | exact h.raise ..
  | help => exact h.raise ..
  | total =>
    unfold Proc.effect Proc.total
    dsimp only
    split
    all_goals first | exact h | (split; exact h.enter ..; exact (h.report _).raise ..)
  | resumeScan =>
    unfold Proc.effect Proc.resumeScan
    dsimp only
    split <;> first | exact h | exact h.enter ..
  | paid =>
    unfold Proc.effect Proc.paid
    dsimp only
    split
    · exact (h.resolve l .payFail).endTxn l
    · exact (h.resolve l .payFail).endTxn l
    · exact (h.report _).raise ..
    · exact (h.report _).raise ..
    · exact (h.report _).raise ..
    · exact h.report _
  | tenderFail =>
    unfold Proc.effect Proc.tenderFail
    dsimp only
    split <;> first | exact h.raise .. | exact h
  | badge => exact h.badge ..
  | override => exact h.override ..

theorem Proc.Sheds.activity {f : Floor} {p : Proc} (h : p.Sheds f) (e : Env) (l : LaneIx) :
    (p.activity e l).Sheds f := by
  simp only [Proc.activity]
  split
  · exact (h.onLane l _ (by intro; rfl)).resolve ..
  · exact h

/-- What processing a frame can do: it sheds deferred lists, and then the frame's event is handed on or its
buffer returns (R14). -/
theorem Floor.process_cases (e : Env) (fr : Frame) (deferred : Bool) (f : Floor) :
    ∃ q, Shed f q ∧ ((∃ ev : LaneEvent, ev.frame = fr ∧ (f.process e fr deferred).1 = q.handOn e ev) ∨
      (f.process e fr deferred).1 = q.giveBack fr.buf) := by
  simp only [Floor.process]
  have h1 : (Proc.effect e fr.lane fr.body
      { floor := f
        annos := (if fr.gap then annGap else 0) ||| (if deferred then annDeferred else 0) }).Sheds f := by
    refine Proc.Sheds.effect ?_ ..
    exact Shed.refl f
  have h2 := h1.activity e fr.lane
  revert h2
  generalize Proc.activity e fr.lane (Proc.effect e fr.lane fr.body
    { floor := f
      annos := (if fr.gap then annGap else 0) ||| (if deferred then annDeferred else 0) }) = q
  intro h2
  have h3 : Shed f (q.floor.touch fr.lane) := Shed.trans h2 (.lanes rfl rfl)
  have h4 := h3.trans (Shed.modLane_same _ fr.lane
    (fun x => { x with counters := { x.counters with
      outOfPlace := bump x.counters.outOfPlace } }) (by intro; rfl))
  simp only [Proc.conclude]
  split
  · exact ⟨_, h3, .inl ⟨_, rfl, rfl⟩⟩
  · exact ⟨_, h4, .inl ⟨_, rfl, rfl⟩⟩
  · exact ⟨_, h4, .inr rfl⟩
  · exact ⟨_, h3, .inr rfl⟩

/-- Handing an event on changes no lane. -/
theorem Floor.lanes_handOn (e : Env) (f : Floor) (ev : LaneEvent) : (f.handOn e ev).lanes = f.lanes := by
  unfold Floor.handOn
  split
  · rfl
  · split <;> rfl

/-- Processing a frame adds to no deferred list. -/
theorem Floor.deferred_process (e : Env) (fr : Frame) (deferred : Bool) (f : Floor) (k : LaneIx) :
    ((f.process e fr deferred).1.lane k).deferred = (f.lane k).deferred ∨
      ((f.process e fr deferred).1.lane k).deferred = [] := by
  obtain ⟨q, h, ⟨ev, _, e1⟩ | e1⟩ := Floor.process_cases e fr deferred f
  · rw [e1, show (q.handOn e ev).lane k = q.lane k by
      unfold Floor.lane
      rw [Floor.lanes_handOn]]
    exact h.all k
  · rw [e1]
    exact h.all k

/-! ## Channel queues (R41, R146, R164) -/

/-- Every channel queue holds at most 24 lane events (R164). -/
def Floor.queuesFit (f : Floor) : Prop := ∀ c : ChanIx, f.chans[c].queue.length ≤ Config.maxQueue

/-- An event handed on where its kind has room keeps the queues within their bound. -/
theorem Floor.queuesFit_handOn {e : Env} {f : Floor} {ev : LaneEvent} (h : f.queuesFit)
    (hr : f.room e ev.frame.body.kind = true) : (f.handOn e ev).queuesFit := by
  intro c
  unfold Floor.room at hr
  unfold Floor.handOn
  cases hc : e.chanOf ev.frame.body.kind with
  | none => exact h c
  | some o =>
    simp only [hc] at hr
    have grow (g : Channel → Channel) (hg : (g f.chans[o]).queue.length ≤ Config.maxQueue) :
        ((f.modChan o g).chans[c]).queue.length ≤ Config.maxQueue := by
      by_cases hk : c = o
      · subst hk
        rw [show (f.modChan c g).chans[c] = g f.chans[c] from upd_get_self _ _ _]
        exact hg
      · rw [show (f.modChan o g).chans[c] = f.chans[c] from upd_get_ne _ _ _ _ hk]
        exact h c
    cases hs : f.chans[o].state with
    | disabled =>
      simp only [hs]
      exact grow (fun ch => { ch with discarded := bump ch.discarded }) (h o)
    | pending | opened =>
      simp only [hs]
      refine grow _ ?_
      rw [hs] at hr
      simp only [Bool.or_eq_true, decide_eq_true_eq, beq_iff_eq, reduceCtorEq, false_or] at hr
      rw [List.length_append]
      exact hr

/-- A frame whose kind has room is processed within the bound. -/
theorem Floor.queuesFit_process {e : Env} {fr : Frame} {f : Floor} (deferred : Bool)
    (h : f.queuesFit) (hr : f.room e fr.body.kind = true) :
    (f.process e fr deferred).1.queuesFit := by
  obtain ⟨q, hs, ⟨ev, hf, e1⟩ | e1⟩ := Floor.process_cases e fr deferred f
  · rw [e1]
    refine Floor.queuesFit_handOn (fun c => ?_) ?_
    · rw [hs.chans]
      exact h c
    · unfold Floor.room at hr ⊢
      rw [hs.chans, hf]
      exact hr
  · rw [e1]
    intro c
    show (q.chans[c]).queue.length ≤ _
    rw [hs.chans]
    exact h c

theorem Floor.queuesFit_passUpTo (e : Env) (l : LaneIx) (n : Nat) {f : Floor} (h : f.queuesFit) :
    (f.passUpTo e l n).queuesFit := by
  induction n generalizing f with
  | zero => exact h
  | succ n ih =>
    unfold Floor.passUpTo
    split
    · exact h
    · split
      · rename_i hp
        unfold Floor.processable at hp
        exact ih (Floor.queuesFit_process true h (Bool.and_eq_true_iff.1 hp).2)
      · exact h

/-- A deferred pass keeps the queues within their bound. -/
theorem Floor.queuesFit_pass (e : Env) (l : LaneIx) {f : Floor} (h : f.queuesFit) :
    (f.pass e l).queuesFit := by
  unfold Floor.pass
  refine Floor.queuesFit_passUpTo e l _ fun c => ?_
  rw [(Floor.of_still (Floor.still_insertions e.params f)).2.1]
  exact h c

/-- The sweep keeps the queues within their bound. -/
theorem Floor.queuesFit_sweep (e : Env) {f : Floor} (h : f.queuesFit) : (f.sweep e).queuesFit := by
  have fold (ls : List LaneIx) (a : Floor × Option LaneIx) (ha : a.1.queuesFit) :
      (ls.foldl (Floor.visit e) a).1.queuesFit := by
    induction ls generalizing a with
    | nil => exact ha
    | cons l ls ih =>
      refine ih _ ?_
      unfold Floor.visit
      split
      · exact ha
      · exact Floor.queuesFit_pass e l ha
  have hf := fold (allLanes.map (fun i => f.releasePtr + i)) (f, none) h
  unfold Floor.sweep
  revert hf
  generalize (allLanes.map (fun i => f.releasePtr + i)).foldl (Floor.visit e) (f, none) = r
  intro hf
  dsimp only
  split <;> exact hf

/-- A frame processed on arrival where its kind has room keeps the queues within their bound. -/
theorem Floor.queuesFit_processNow {e : Env} {fr : Frame} {f : Floor} (h : f.queuesFit)
    (hr : f.room e fr.body.kind = true) : (f.processNow e fr).queuesFit := by
  have h1 := Floor.queuesFit_process false h hr
  unfold Floor.processNow
  dsimp only
  split
  · exact Floor.queuesFit_pass e _ h1
  · exact h1

theorem Floor.chans_accept (e : Env) (l : LaneIx) (seq : Seq) (gap : Nat) (lost : Option Nat)
    (f : Floor) : (f.accept e l seq gap lost).chans = f.chans := by
  cases lost with
  | none => rfl
  | some n => exact (Floor.of_still (Floor.still_raise e l .lostFrame _ none _)).2.1

/-- Intake keeps the queues within their bound: a frame processed on arrival is one that finds room (R146). -/
theorem Floor.queuesFit_intake (e : Env) (l : LaneIx) (raw : RawFrame) (b : BufId) {f : Floor}
    (h : f.queuesFit) : (f.intake e l raw b).queuesFit := by
  have accepted (seq : Seq) (gap : Nat) (lost : Option Nat) (g : Floor) (hg : g.queuesFit) :
      (g.accept e l seq gap lost).queuesFit := fun c => by
    rw [Floor.chans_accept]
    exact hg c
  have ht : (f.touch l).queuesFit := h
  unfold Floor.intake
  dsimp only
  split
  · exact ht
  · split
    · exact fun c => accepted _ _ _ _ ht c
    · unfold Floor.wellFormed
      dsimp only
      split
      · split
        · exact fun c => accepted _ _ _ _ ht c
        · exact ht
      · split
        · rename_i hr
          refine Floor.queuesFit_processNow (accepted _ _ _ _ ht) ?_
          unfold Floor.room at hr ⊢
          rw [Floor.chans_accept]
          exact hr
        · exact ht

end Sys2Proof.Machine
end

