-- ==== Sys2Proof/Laws/Events.lean ====
section
/-! SUPPORT. What the end of an event and the operations of a line leave unchanged. -/

namespace Sys2Proof.Machine

/-- What the transmitter's choice and the end of an event never touch. -/
def State.settings (s : State) : Tables × ChanMap × Params × Mgmt × Counter × Stamp × Fin 1474560 ×
    Option ResetCause × List Instr :=
  (s.tables, s.map, s.params, s.mgmt, s.poolEmpty, s.storeTime, s.prescaler, s.held, s.pending)

theorem State.settings_settle (s : State) : s.settle.settings = s.settings := rfl

theorem State.settings_choose (s : State) : s.choose.settings = s.settings := by
  unfold State.choose
  split
  · rfl
  · rfl
  · rfl
  · rfl
  · rfl
  · split
    · unfold State.sendEvent
      split <;> rfl
    · rfl

theorem State.settings_arbiter (s : State) : s.arbiter.settings = s.settings := by
  unfold State.arbiter
  split
  · exact State.settings_choose s
  · rfl

/-- The end of an event changes no setting, table, counter of requests, clock, hold or queued command. -/
theorem State.settings_finish (s : State) : s.finish.settings = s.settings :=
  (State.settings_arbiter _).trans (State.settings_settle s)

theorem State.lines_choose (s : State) : s.choose.lines = s.lines := by
  unfold State.choose
  split
  · rfl
  · rfl
  · rfl
  · rfl
  · rfl
  · split
    · unfold State.sendEvent
      split <;> rfl
    · rfl

/-- The end of an event changes no line record. -/
theorem State.lines_finish (s : State) : s.finish.lines = s.lines := by
  unfold State.finish State.arbiter
  split
  · exact State.lines_choose _
  · rfl

/-- The arbiter does nothing while the link is DOWN, a message is being sent or the part is held. -/
theorem State.arbiter_busy {s : State} (h : s.linkUp = false ∨ s.link.tx ≠ none ∨ s.held ≠ none) :
    s.arbiter = s := by
  unfold State.arbiter
  rw [if_neg]
  rintro ⟨h1, h2, h3⟩
  rcases h with h | h | h
  · rw [h] at h1
    exact absurd h1 (by simp)
  · exact h h2
  · exact h h3

/-- A choice of the arbiter leaves the frame pool and every lane unchanged. -/
theorem State.pool_choose (s : State) :
    s.choose.floor.free = s.floor.free ∧ s.choose.floor.lanes = s.floor.lanes := by
  unfold State.choose
  split
  · exact ⟨rfl, rfl⟩
  · exact ⟨rfl, rfl⟩
  · exact ⟨rfl, rfl⟩
  · exact ⟨rfl, rfl⟩
  · exact ⟨rfl, rfl⟩
  · split
    · unfold State.sendEvent
      split <;> exact ⟨rfl, rfl⟩
    · exact ⟨rfl, rfl⟩

/-- The end of an event leaves the frame pool and the core of every lane unchanged. -/
theorem State.pool_finish (s : State) :
    s.finish.floor.free = s.floor.free ∧
      ∀ k, (s.finish.floor.lane k).core = (s.floor.lane k).core := by
  have hs := Floor.of_still (Floor.still_settle s.env s.floor)
  have h : s.finish.floor.free = s.settle.floor.free ∧ s.finish.floor.lanes = s.settle.floor.lanes := by
    unfold State.finish State.arbiter
    split
    · exact State.pool_choose _
    · exact ⟨rfl, rfl⟩
  refine ⟨h.1.trans hs.1, fun k => ?_⟩
  have : s.finish.floor.lane k = s.settle.floor.lane k := congrArg (fun v => v[k]) h.2
  rw [this]
  exact hs.2.2.2.2 k

/-! ## Lines -/

theorem State.claim_held {s : State} {n : LineIx} {b : BufId} (h : (s.line n).slot = some b) :
    s.claim n = s := by
  unfold State.claim
  rw [h]

theorem State.claim_empty {s : State} {n : LineIx} (h : (s.line n).slot = none)
    (hf : s.floor.free = []) : s.claim n = s := by
  unfold State.claim
  rw [h, hf]

/-- Nothing a turn begins with touches the tables, the settings or the store link. -/
theorem State.claim_settings (s : State) (n : LineIx) :
    (s.claim n).tables = s.tables ∧ (s.claim n).params = s.params ∧ (s.claim n).map = s.map ∧
      (s.claim n).mgmt = s.mgmt ∧ (s.claim n).link = s.link ∧ (s.claim n).held = s.held ∧
      (s.claim n).pending = s.pending := by
  unfold State.claim
  split
  · exact ⟨rfl, rfl, rfl, rfl, rfl, rfl, rfl⟩
  · split
    · exact ⟨rfl, rfl, rfl, rfl, rfl, rfl, rfl⟩
    · split <;> exact ⟨rfl, rfl, rfl, rfl, rfl, rfl, rfl⟩

theorem DropLink.troubled_clear {d : DropLink} (h : d.trouble = false) :
    d.troubled = true ↔ d.link = .offline ∨ 12 ≤ d.quality := by
  have e : d.troubled = (d.link == .offline || decide (Config.troubleOn ≤ d.quality)) := by
    rw [DropLink.troubled, h]
    rfl
  rw [e, Bool.or_eq_true, beq_iff_eq, decide_eq_true_iff]
  rfl

theorem DropLink.troubled_held {d : DropLink} (h : d.trouble = true) :
    d.troubled = false ↔ d.link = .online ∧ d.quality < 8 := by
  have e : d.troubled = !(d.link == .online && decide (d.quality < Config.troubleOff)) := by
    rw [DropLink.troubled, h]
    rfl
  rw [e, Bool.not_eq_false', Bool.and_eq_true, beq_iff_eq, decide_eq_true_iff]
  rfl

end Sys2Proof.Machine
end

