-- ==== Sys2Proof/Laws/PerInstr.lean ====
section
/-! SUPPORT. A statement for every command as syntax: a well-formed request fits one message of the store
link, 120 content characters (R157, 11.2). -/

namespace Sys2Proof

theorem GroupWrite.chars_length (es : List GroupWrite) :
    (es.flatMap GroupWrite.chars).length = 4 * es.length := by
  induction es with
  | nil => rfl
  | cons e es ih =>
    rw [List.flatMap_cons, List.length_append, ih, List.length_cons]
    have : e.chars.length = 4 := rfl
    omega

theorem WatchWrite.chars_length (es : List WatchWrite) :
    (es.flatMap WatchWrite.chars).length = 8 * es.length := by
  induction es with
  | nil => rfl
  | cons e es ih =>
    rw [List.flatMap_cons, List.length_append, ih, List.length_cons]
    have : e.chars.length = 8 := rfl
    omega

namespace Laws.Catalogued

/-- A well-formed request has at most 120 content characters; a command that is no request has none. -/
def Statement (i : Instr) : Prop :=
  i.wellFormed = true → ∀ w, i.wire = some w → w.content.length ≤ 120

/-- A request of fixed length, by its message. -/
theorem fixed {i : Instr} {w : WireRequest} (h : i.wire = some w)
    (hl : w.content.length ≤ 120) : Statement i :=
  fun _ _ hv => Option.some.inj (h.symm.trans hv) ▸ hl

/-- A command that is no request. -/
theorem noWire {i : Instr} (h : i.wire = none) : Statement i :=
  fun _ _ hv => absurd (h.symm.trans hv) (by simp)

theorem powerOn (resetLow : Bool) : Statement (.powerOn resetLow) := noWire rfl
theorem resetPinLow : Statement .resetPinLow := noWire rfl
theorem resetPinHigh : Statement .resetPinHigh := noWire rfl
theorem tick (linkOk : Bool) : Statement (.tick linkOk) := noWire rfl
theorem linkDown : Statement .linkDown := noWire rfl
theorem linkUp : Statement .linkUp := noWire rfl
theorem callInputSample (levels : LaneSet) : Statement (.callInputSample levels) := noWire rfl
theorem skippedCharacter : Statement .skippedCharacter := noWire rfl
theorem badLength : Statement .badLength := noWire rfl
theorem truncated : Statement .truncated := noWire rfl
theorem badCheck : Statement .badCheck := noWire rfl
theorem wrongChannel : Statement .wrongChannel := noWire rfl
theorem lostRequest : Statement .lostRequest := noWire rfl
theorem unknownRequest (tag : Byte) (kind : BitVec 6) (content : List Byte) :
    Statement (.unknownRequest tag kind content) := by
  intro h w hw
  have h' : decide (content.length ≤ 120) = true := (Bool.and_eq_true_iff.1 h).1
  rw [← Option.some.inj hw]
  exact of_decide_eq_true h'
theorem credit (tag channel count : Byte) :
    Statement (.credit tag channel count) := fixed rfl (Nat.le_of_ble_eq_true rfl)
theorem channelSetEnable (tag channel enable : Byte) :
    Statement (.channelSetEnable tag channel enable) := fixed rfl (Nat.le_of_ble_eq_true rfl)
theorem channelSetDisable (tag channel : Byte) :
    Statement (.channelSetDisable tag channel) := fixed rfl (Nat.le_of_ble_eq_true rfl)
theorem mapSet (tag kind channel : Byte) :
    Statement (.mapSet tag kind channel) := fixed rfl (Nat.le_of_ble_eq_true rfl)
theorem loadBegin (tag bank : Byte) (groups : BitVec 16) (watch : Byte) :
    Statement (.loadBegin tag bank groups watch) := fixed rfl (Nat.le_of_ble_eq_true rfl)
theorem loadGroups (tag bank : Byte) (entries : List GroupWrite) :
    Statement (.loadGroups tag bank entries) := by
  intro h w hw
  have h' : entries.length ≤ 29 := of_decide_eq_true h
  rw [← Option.some.inj hw]
  show (entries.flatMap GroupWrite.chars).length + 1 ≤ 120
  rw [GroupWrite.chars_length]
  omega
theorem loadWatch (tag bank : Byte) (entries : List WatchWrite) :
    Statement (.loadWatch tag bank entries) := by
  intro h w hw
  have h' : entries.length ≤ 14 := of_decide_eq_true h
  rw [← Option.some.inj hw]
  show (entries.flatMap WatchWrite.chars).length + 1 ≤ 120
  rw [WatchWrite.chars_length]
  omega
theorem loadEnd (tag bank : Byte) :
    Statement (.loadEnd tag bank) := fixed rfl (Nat.le_of_ble_eq_true rfl)
theorem loadAbort (tag bank : Byte) :
    Statement (.loadAbort tag bank) := fixed rfl (Nat.le_of_ble_eq_true rfl)
theorem commit (tag bank : Byte) :
    Statement (.commit tag bank) := fixed rfl (Nat.le_of_ble_eq_true rfl)
theorem badgeSet (tag : Byte) (badge : BadgeNo) (level : Byte) :
    Statement (.badgeSet tag badge level) := fixed rfl (Nat.le_of_ble_eq_true rfl)
theorem badgeClear (tag mode : Byte) (badge : BadgeNo) :
    Statement (.badgeClear tag mode badge) := fixed rfl (Nat.le_of_ble_eq_true rfl)
theorem badgeClearAll (tag : Byte) (badge : BadgeNo) :
    Statement (.badgeClearAll tag badge) := fixed rfl (Nat.le_of_ble_eq_true rfl)
theorem zoneSet (tag console : Byte) (lanes : LaneSet) :
    Statement (.zoneSet tag console lanes) := fixed rfl (Nat.le_of_ble_eq_true rfl)
theorem laneOpen (tag lane : Byte) :
    Statement (.laneOpen tag lane) := fixed rfl (Nat.le_of_ble_eq_true rfl)
theorem laneClose (tag lane force : Byte) :
    Statement (.laneClose tag lane force) := fixed rfl (Nat.le_of_ble_eq_true rfl)
theorem laneCloseForce (tag lane : Byte) :
    Statement (.laneCloseForce tag lane) := fixed rfl (Nat.le_of_ble_eq_true rfl)
theorem laneReset (tag lane : Byte) :
    Statement (.laneReset tag lane) := fixed rfl (Nat.le_of_ble_eq_true rfl)
theorem inputSet (tag lane enable edge : Byte) :
    Statement (.inputSet tag lane enable edge) := fixed rfl (Nat.le_of_ble_eq_true rfl)
theorem lineQuiet (tag line : Byte) :
    Statement (.lineQuiet tag line) := fixed rfl (Nat.le_of_ble_eq_true rfl)
theorem lineWake (tag line : Byte) :
    Statement (.lineWake tag line) := fixed rfl (Nat.le_of_ble_eq_true rfl)
theorem consoleOn (tag console : Byte) :
    Statement (.consoleOn tag console) := fixed rfl (Nat.le_of_ble_eq_true rfl)
theorem consoleOff (tag console : Byte) :
    Statement (.consoleOff tag console) := fixed rfl (Nat.le_of_ble_eq_true rfl)
theorem claim (tag console slot issue : Byte) :
    Statement (.claim tag console slot issue) := fixed rfl (Nat.le_of_ble_eq_true rfl)
theorem decline (tag console slot issue : Byte) :
    Statement (.decline tag console slot issue) := fixed rfl (Nat.le_of_ble_eq_true rfl)
theorem release (tag console slot issue : Byte) :
    Statement (.release tag console slot issue) := fixed rfl (Nat.le_of_ble_eq_true rfl)
theorem resolveClear (tag console slot issue action : Byte) :
    Statement (.resolveClear tag console slot issue action) := fixed rfl (Nat.le_of_ble_eq_true rfl)
theorem resolveRefer (tag console slot issue : Byte) :
    Statement (.resolveRefer tag console slot issue) := fixed rfl (Nat.le_of_ble_eq_true rfl)
theorem readLane (tag lane page : Byte) :
    Statement (.readLane tag lane page) := fixed rfl (Nat.le_of_ble_eq_true rfl)
theorem readQueue (tag list start : Byte) :
    Statement (.readQueue tag list start) := fixed rfl (Nat.le_of_ble_eq_true rfl)
theorem readStatus (tag page : Byte) :
    Statement (.readStatus tag page) := fixed rfl (Nat.le_of_ble_eq_true rfl)
theorem readCounters (tag group clear : Byte) :
    Statement (.readCounters tag group clear) := fixed rfl (Nat.le_of_ble_eq_true rfl)
theorem setParam (tag param : Byte) (value : BitVec 24) :
    Statement (.setParam tag param value) := fixed rfl (Nat.le_of_ble_eq_true rfl)
theorem setTime (tag : Byte) (value : Stamp) :
    Statement (.setTime tag value) := fixed rfl (Nat.le_of_ble_eq_true rfl)
theorem partReset (tag : Byte) : Statement (.partReset tag) := fixed rfl (Nat.le_of_ble_eq_true rfl)
theorem messageComplete : Statement .messageComplete := noWire rfl
theorem responseComplete : Statement .responseComplete := noWire rfl
theorem laneEventComplete : Statement .laneEventComplete := noWire rfl
theorem bagSettleExpiry (lane : LaneIx) : Statement (.bagSettleExpiry lane) := noWire rfl
theorem inactivityExpiry (lane : LaneIx) : Statement (.inactivityExpiry lane) := noWire rfl
theorem presenceExpiry (lane : LaneIx) : Statement (.presenceExpiry lane) := noWire rfl
theorem refusalMessageExpiry (lane : LaneIx) : Statement (.refusalMessageExpiry lane) := noWire rfl
theorem escalationExpiry (slot : SlotIx) : Statement (.escalationExpiry slot) := noWire rfl
theorem offerExpiry (slot : SlotIx) : Statement (.offerExpiry slot) := noWire rfl
theorem claimExpiry (slot : SlotIx) : Statement (.claimExpiry slot) := noWire rfl
theorem wakeSettleExpiry (line : LineIx) : Statement (.wakeSettleExpiry line) := noWire rfl
theorem pollEnd (line : LineIx) : Statement (.pollEnd line) := noWire rfl
theorem miss (line : LineIx) : Statement (.miss line) := noWire rfl
theorem damagedAnswer (line : LineIx) : Statement (.damagedAnswer line) := noWire rfl
theorem answerTruncated (line : LineIx) : Statement (.answerTruncated line) := noWire rfl
theorem goodAnswer (line : LineIx) (chars : List RxChar) :
    Statement (.goodAnswer line chars) := noWire rfl
theorem lineBreak (line : LineIx) : Statement (.lineBreak line) := noWire rfl
theorem stray (line : LineIx) (char : RxChar) : Statement (.stray line char) := noWire rfl
theorem idleRoundEnd (line : LineIx) : Statement (.idleRoundEnd line) := noWire rfl
theorem startCharacter : Statement .startCharacter := noWire rfl
theorem answerStart (line : LineIx) : Statement (.answerStart line) := noWire rfl

end Laws.Catalogued

end Sys2Proof
end

