-- ==== Sys2Proof/Laws/Queue.lean ====
section
/-! SUPPORT. What the operations of the intervention queue say of one record and one console: changed
records, the queue and its order, presence by the reason again, the eligible consoles, an offer taken
away. -/

namespace Sys2Proof.Machine

/-! ## Records and consoles changed -/

theorem Desk.recAt_modRec (d : Desk) (k j : SlotIx) (g : Record → Record) :
    (d.modRec k g).recAt j = if j = k then (d.recAt k).map g else d.recAt j := by
  by_cases h : j = k
  · subst h
    rw [if_pos rfl]
    exact congrArg QSlot.rec? (upd_get_self ..)
  · rw [if_neg h]
    exact congrArg QSlot.rec? (upd_get_ne _ _ _ _ h)

theorem Desk.issue_modRec (d : Desk) (k j : SlotIx) (g : Record → Record) :
    (d.modRec k g).slots[j].issue = d.slots[j].issue := by
  by_cases h : j = k
  · subst h
    have e : (d.modRec j g).slots[j] = { d.slots[j] with rec? := d.slots[j].rec?.map g } :=
      upd_get_self ..
    rw [e]
  · exact congrArg QSlot.issue (upd_get_ne _ _ _ _ h)

theorem Desk.console_modConsole (d : Desk) (c o : ConsoleIx) (g : Console → Console) :
    (d.modConsole c g).console o = if o = c then g (d.console c) else d.console o := by
  by_cases h : o = c
  · subst h
    rw [if_pos rfl]
    exact upd_get_self ..
  · rw [if_neg h]
    exact upd_get_ne _ _ _ _ h

theorem Desk.modConsole_modConsole (d : Desk) (c : ConsoleIx) (g h : Console → Console) :
    (d.modConsole c g).modConsole c h = d.modConsole c (fun x => h (g x)) := by
  simp [Desk.modConsole, Desk.console, upd]

/-- An offer taken away: its console is FREE at the tail of the free order, marked where the offer had been
sent, restored where it had not (R60, R61). -/
theorem Desk.unofferTo_eq (d : Desk) (c : ConsoleIx) (sent : Bool) (cause : Cause) :
    d.unofferTo c sent cause =
      { d.modConsole c (fun x =>
          match sent, x.saved with
          | true, _ => { x with state := .free, pending := true, cause := cause }
          | false, none => { x with state := .free }
          | false, some (pending, cause) =>
            { x with state := .free, pending := pending, cause := cause, saved := none }) with
        freeOrder := d.freeOrder ++ [c], dispatchDue := true } := by
  have put (g h : Console → Console) (e : ∀ x, g x = h x) :
      ({ d.modConsole c g with freeOrder := d.freeOrder ++ [c], dispatchDue := true } : Desk) =
        { d.modConsole c h with freeOrder := d.freeOrder ++ [c], dispatchDue := true } := by
    rw [funext e]
  cases sent with
  | false =>
    show ({ (d.modConsole c (fun x => { x with state := .free })).modConsole c (fun x =>
        match x.saved with
        | some (pending, cause) => { x with pending := pending, cause := cause, saved := none }
        | none => x) with freeOrder := d.freeOrder ++ [c], dispatchDue := true } : Desk) = _
    rw [Desk.modConsole_modConsole]
    exact put _ _ (fun x => by cases x.saved <;> rfl)
  | true =>
    show ({ (d.modConsole c (fun x => { x with state := .free })).modConsole c (fun x =>
        { x with pending := true, cause := cause }) with
          freeOrder := d.freeOrder ++ [c], dispatchDue := true } : Desk) = _
    rw [Desk.modConsole_modConsole]

/-! ## The queue (R52) -/

theorem Desk.mem_records (d : Desk) (k : SlotIx) (r : Record) :
    (k, r) ∈ d.records ↔ d.recAt k = some r := by
  simp only [Desk.records, List.mem_filterMap]
  constructor
  · rintro ⟨j, _, h⟩
    cases hj : d.recAt j <;> simp [hj] at h
    obtain ⟨rfl, rfl⟩ := h
    exact hj
  · intro h
    exact ⟨k, List.mem_finRange k, by simp [h]⟩

/-- The queue holds the records with their slots. -/
theorem Desk.mem_queue (d : Desk) (k : SlotIx) (r : Record) :
    (k, r) ∈ d.queue ↔ d.recAt k = some r :=
  ((sortBy_perm _ _).mem_iff).trans (Desk.mem_records d k r)

/-- The queue holds each slot at most once. -/
theorem Desk.nodup_queue (d : Desk) : (d.queue.map (·.1)).Nodup := by
  have hp : (d.queue.map (·.1)).Perm (d.records.map (·.1)) := (sortBy_perm _ _).map _
  have hr : d.records.map (·.1) = allSlots.filter (fun k => (d.recAt k).isSome) := by
    unfold Desk.records
    induction allSlots with
    | nil => rfl
    | cons k ks ih =>
      rw [List.filterMap_cons, List.filter_cons]
      cases d.recAt k <;> simp [ih]
  rw [hp.nodup_iff, hr]
  exact (List.nodup_finRange 48).filter _

/-- What `before` decides between two records: the queue order, ties and all. -/
theorem Record.before_rank (a b : Record) :
    (a.before b = true → b.current < a.current ∨ (b.current = a.current ∧
      (a.stamp < b.stamp ∨ (a.stamp = b.stamp ∧
        (a.lane < b.lane ∨ (a.lane = b.lane ∧ a.reason.ix ≤ b.reason.ix)))))) ∧
    (a.before b = false → a.current < b.current ∨ (a.current = b.current ∧
      (b.stamp < a.stamp ∨ (b.stamp = a.stamp ∧
        (b.lane < a.lane ∨ (b.lane = a.lane ∧ b.reason.ix ≤ a.reason.ix)))))) := by
  unfold Record.before
  by_cases h1 : a.current = b.current <;> by_cases h2 : a.stamp = b.stamp <;>
    by_cases h3 : a.lane = b.lane <;>
    simp only [h1, h2, h3, ne_eq, not_true, not_false_iff, if_true, if_false, decide_eq_true_iff,
      decide_eq_false_iff_not, true_and, false_and, or_false, Fin.lt_def, Fin.le_def, BitVec.lt_def,
      Nat.lt_irrefl, false_or] <;>
    simp only [Fin.ext_iff, ← BitVec.toNat_inj] at * <;>
    (refine ⟨fun h => ?_, fun h => ?_⟩) <;> omega

/-! ## Records that need presence by their reason again (R9) -/

/-- One change over a list of slots: the slots alone change, no issue does, and a change that repeats
itself is made once at each listed slot. -/
theorem Desk.foldl_modRec (ks : List (SlotIx × Record)) (g : Record → Record) (d : Desk) :
    let t := ks.foldl (fun d kr => d.modRec kr.1 g) d
    t = { d with slots := t.slots } ∧ (∀ k : SlotIx, t.slots[k].issue = d.slots[k].issue) ∧
      ((∀ r, g (g r) = g r) →
        ∀ k, t.recAt k = if k ∈ ks.map (·.1) then (d.recAt k).map g else d.recAt k) := by
  induction ks generalizing d with
  | nil => exact ⟨rfl, fun _ => rfl, fun _ k => by simp⟩
  | cons kr ks ih =>
    obtain ⟨h1, h2, h3⟩ := ih (d.modRec kr.1 g)
    refine ⟨?_, fun k => ?_, fun hg k => ?_⟩
    · rw [List.foldl_cons, h1]
      rfl
    · rw [List.foldl_cons, h2, Desk.issue_modRec]
    · rw [List.foldl_cons, h3 hg, Desk.recAt_modRec]
      by_cases e1 : k ∈ ks.map (·.1) <;> by_cases e2 : k = kr.1
      · subst e2
        simp [e1, Option.map_map, Function.comp_def, hg]
      · simp [e1, e2]
      · subst e2
        simp [e1]
      · simp [e1, e2]

/-- What the closing of a lane leaves of the remaining records: a record of the lane needs presence where
its reason does, and nothing else changes (R9). -/
theorem Desk.clearReferred_spec (d : Desk) (l : LaneIx) :
    d.clearReferred l = { d with slots := (d.clearReferred l).slots } ∧
      (∀ k : SlotIx, (d.clearReferred l).slots[k].issue = d.slots[k].issue) ∧
      ∀ k : SlotIx, (d.clearReferred l).recAt k = (d.recAt k).map (fun r =>
        { r with needsPresence :=
            if r.lane = l then r.reason.needsPresence else r.needsPresence }) := by
  obtain ⟨h1, h2, h3⟩ := Desk.foldl_modRec (d.ofLane l)
    (fun r => { r with needsPresence := r.reason.needsPresence }) d
  have listed (k : SlotIx) (r : Record) (hr : d.recAt k = some r) :
      k ∈ (d.ofLane l).map (·.1) ↔ r.lane = l := by
    simp [Desk.ofLane, List.mem_filter, Desk.mem_queue, hr]
  refine ⟨h1, h2, fun k => (h3 (fun _ => rfl) k).trans ?_⟩
  cases hr : d.recAt k with
  | none => simp
  | some r =>
    by_cases hl : r.lane = l
    · rw [if_pos ((listed k r hr).2 hl)]
      simp [hl]
    · rw [if_neg (fun h => hl ((listed k r hr).1 h))]
      simp [hl]

/-! ## Eligible consoles (R64) -/

theorem mem_allConsoles (c : ConsoleIx) : c ∈ allConsoles := List.mem_finRange c

/-- The eligible consoles: the present ones whose zone holds the lane, or every present one where no
present zone holds it. -/
theorem Desk.mem_eligible (d : Desk) (zones : Vector LaneSet 4) (l : LaneIx) (c : ConsoleIx) :
    c ∈ d.eligible zones l ↔ (d.console c).state ≠ .absent ∧
      (hasLane zones[c] l = true ∨
        ∀ o, (d.console o).state ≠ .absent → hasLane zones[o] l = false) := by
  unfold Desk.eligible
  dsimp only
  by_cases h : allConsoles.filter (fun c => d.present c && zoneHolds zones c l) = []
  · have none_ (o : ConsoleIx) (ho : (d.console o).state ≠ .absent) : hasLane zones[o] l = false := by
      have := List.filter_eq_nil_iff.1 h o (mem_allConsoles o)
      simpa [Desk.present, zoneHolds, ho] using this
    rw [h]
    simp only [List.isEmpty_nil, if_true, List.mem_filter, mem_allConsoles, true_and, Desk.present,
      bne_iff_ne]
    exact ⟨fun hc => ⟨hc, .inr none_⟩, fun hc => hc.1⟩
  · have some_ : (allConsoles.filter
        (fun c => d.present c && zoneHolds zones c l)).isEmpty = false := by simpa using h
    rw [some_]
    simp only [Bool.false_eq_true, if_false, List.mem_filter, mem_allConsoles, true_and, Desk.present,
      zoneHolds, Bool.and_eq_true, bne_iff_ne]
    refine ⟨fun hc => ⟨hc.1, .inl hc.2⟩, fun hc => ⟨hc.1, ?_⟩⟩
    rcases hc.2 with hz | hz
    · exact hz
    · refine absurd (List.filter_eq_nil_iff.2 fun o _ => ?_) h
      simp only [Desk.present, zoneHolds, Bool.and_eq_true, bne_iff_ne, not_and, Bool.not_eq_true]
      exact hz o

theorem Desk.exhausted_iff (d : Desk) (zones : Vector LaneSet 4) (r : Record) :
    d.exhausted zones r = true ↔ (∃ c, c ∈ d.eligible zones r.lane) ∧
      ∀ c, c ∈ d.eligible zones r.lane → hasConsole r.declined c = true := by
  unfold Desk.exhausted
  simp only [Bool.and_eq_true, Bool.not_eq_true', List.all_eq_true]
  exact ⟨fun h => ⟨List.isEmpty_eq_false_iff_exists_mem.1 h.1, h.2⟩,
    fun h => ⟨List.isEmpty_eq_false_iff_exists_mem.2 h.1, h.2⟩⟩

end Sys2Proof.Machine
end

