-- ==== Sys2Proof/Laws/Reasons.lean ====
section
/-! SUPPORT. What entering a state, freeing a deferred list, and taking reasons out of a raised set leave at
a lane, and with them what the end of a transaction leaves (R9, R11, R36, R37, R44). -/

namespace Sys2Proof.Machine

/-! ## Sets -/

theorem hasLane_laneBit (l o : LaneIx) : hasLane (laneBit l) o = decide (o = l) := by
  revert l o
  decide

theorem hasLane_addLane (v : LaneSet) (l o : LaneIx) :
    hasLane (addLane v l) o = (hasLane v o || o == l) := by
  have h : hasLane (addLane v l) o = (hasLane v o || hasLane (laneBit l) o) := by
    simp [hasLane, addLane]
  rw [h, hasLane_laneBit]
  rfl

theorem mem_allReasons (r : Reason) : r ∈ allReasons := by
  cases r <;> decide

/-- The set of a list of reasons holds what the list holds. -/
theorem reasonSet_getLsbD (rs : List Reason) (r : Reason) :
    (reasonSet rs).getLsbD r.ix.1 = decide (r ∈ rs) := by
  have h (rs : List Reason) (s : ReasonSet) :
      (rs.foldl (fun s r => s ||| reasonBit r) s).getLsbD r.ix.1 =
        (s.getLsbD r.ix.1 || decide (r ∈ rs)) := by
    induction rs generalizing s with
    | nil => simp
    | cons q rs ih =>
      have hq : (reasonBit q).getLsbD r.ix.1 = decide (r = q) := by
        cases q <;> cases r <;> decide
      rw [List.foldl_cons, ih, BitVec.getLsbD_or, hq, Bool.or_assoc, ← Bool.decide_or]
      simp only [List.mem_cons]
  unfold reasonSet
  rw [h]
  simp

theorem Reason.outlives_eq (r : Reason) : r.outlives = (r == .help || r == .link) := by
  cases r <;> rfl

/-! ## Entries of a raised set -/

theorem Lane.entry_setEntry (x : Lane) (r q : Reason) (en : Option Raised) :
    (x.setEntry r en).entry q = if q = r then en else x.entry q := by
  unfold Lane.entry Lane.setEntry
  split
  · rename_i h
    subst h
    exact upd_get_self ..
  · rename_i h
    refine upd_get_ne _ _ _ _ fun e => h ?_
    revert e
    cases q <;> cases r <;> decide

theorem Lane.entry_without (x : Lane) (r q : Reason) :
    (x.without r).entry q = if q = r then none else x.entry q := by
  unfold Lane.without
  split <;> exact Lane.entry_setEntry ..

theorem Lane.mem_reasons (x : Lane) (r : Reason) : r ∈ x.reasons ↔ x.has r = true := by
  simp [Lane.reasons, List.mem_filter, mem_allReasons]

/-- The reasons that end with a lane, in the order of R29: all but HELP and LINK (R9, R11). -/
theorem Lane.ending_eq (x : Lane) :
    x.ending = x.reasons.filter (fun r => r != .help && r != .link) := by
  unfold Lane.ending
  refine List.filter_congr fun r _ => ?_
  rw [Reason.outlives_eq]
  cases r <;> rfl

theorem Lane.mem_ending (x : Lane) (r : Reason) :
    r ∈ x.ending ↔ x.has r = true ∧ r.outlives = false := by
  simp [Lane.ending, List.mem_filter, Lane.mem_reasons]

/-! ## Lanes under the operations of the floor -/

theorem Floor.modLane_modLane (f : Floor) (l : LaneIx) (g h : Lane → Lane) :
    (f.modLane l g).modLane l h = f.modLane l (fun x => h (g x)) := by
  simp [Floor.modLane, Floor.setLane, Floor.lane, upd]

theorem Floor.lane_congr {f g : Floor} (h : f.lanes = g.lanes) (k : LaneIx) : f.lane k = g.lane k := by
  unfold Floor.lane
  rw [h]

theorem Floor.enter_eq (f : Floor) (l : LaneIx) (st : LaneState) (h : (f.lane l).state ≠ st) :
    f.enter l st = (f.modLane l (fun x => { x with state := st })).flag l := by
  unfold Floor.enter
  rw [if_neg h]
  rfl

theorem Floor.lane_enter_self (f : Floor) (l : LaneIx) (st : LaneState) :
    (f.enter l st).lane l = { f.lane l with state := st } := by
  unfold Floor.enter
  dsimp only
  split <;>
    (show (f.setLane l _).lane l = _; simp [Floor.lane, Floor.setLane, upd])

theorem Floor.lane_enter_ne (f : Floor) (l k : LaneIx) (st : LaneState) (h : k ≠ l) :
    (f.enter l st).lane k = f.lane k := by
  unfold Floor.enter
  dsimp only
  split <;> exact upd_get_ne _ _ _ _ h

theorem Floor.free_enter (f : Floor) (l : LaneIx) (st : LaneState) : (f.enter l st).free = f.free := by
  unfold Floor.enter
  dsimp only
  split <;> rfl

theorem Floor.flag_enter (f : Floor) (l : LaneIx) (st : LaneState) (h : (f.lane l).state ≠ st) :
    hasLane (f.enter l st).laneFlags l = true := by
  rw [Floor.enter_eq f l st h]
  show hasLane (addLane _ l) l = true
  rw [hasLane_addLane]
  simp

theorem Floor.desk_enter (f : Floor) (l : LaneIx) (st : LaneState) : (f.enter l st).desk = f.desk := by
  unfold Floor.enter
  dsimp only
  split <;> rfl

theorem Floor.touched_enter (f : Floor) (l : LaneIx) (st : LaneState) :
    hasLane (f.enter l st).touched l = true := by
  have h (v : LaneSet) : hasLane (addLane v l) l = true := by
    rw [hasLane_addLane]
    simp
  unfold Floor.enter
  dsimp only
  split <;> exact h _

theorem Floor.lane_freeDeferred_self (f : Floor) (l : LaneIx) :
    (f.freeDeferred l).lane l =
      { f.lane l with
          deferred := []
          counters := { (f.lane l).counters with
            freed := bump (f.lane l).counters.freed (f.lane l).deferred.length } } := by
  show (f.setLane l _).lane l = _
  simp [Floor.lane, Floor.setLane, upd]

theorem Floor.lane_freeDeferred_ne (f : Floor) (l k : LaneIx) (h : k ≠ l) :
    (f.freeDeferred l).lane k = f.lane k :=
  upd_get_ne _ _ _ _ h

/-! ## Reasons taken out (R36, R37) -/

/-- Taking a reason out that is not raised changes nothing. -/
theorem Floor.takeOut_none {f : Floor} {l : LaneIx} {r : Reason} (cause : Cause)
    (h : (f.lane l).entry r = none) : f.takeOut cause l r = f := by
  simp [Floor.takeOut, h]

/-- Taking a raised reason out changes the lanes at its lane alone. -/
theorem Floor.lanes_takeOut {f : Floor} {l : LaneIx} {r : Reason} {en : Raised} (cause : Cause)
    (h : (f.lane l).entry r = some en) :
    (f.takeOut cause l r).lanes = (f.modLane l (fun x => x.without r)).lanes := by
  simp only [Floor.takeOut, h]
  split
  · split <;> rfl
  · rfl

theorem Floor.entry_takeOut (cause : Cause) (f : Floor) (l k : LaneIx) (r q : Reason) :
    ((f.takeOut cause l r).lane k).entry q = if k = l ∧ q = r then none else (f.lane k).entry q := by
  cases h : (f.lane l).entry r with
  | none =>
    rw [Floor.takeOut_none cause h]
    split
    · rename_i e
      rw [e.1, e.2, h]
    · rfl
  | some en =>
    rw [Floor.lane_congr (Floor.lanes_takeOut cause h)]
    by_cases hk : k = l
    · subst hk
      rw [Floor.lane_modLane_self, Lane.entry_without]
      simp
    · rw [Floor.lane_modLane_ne _ _ _ _ hk]
      simp [hk]

theorem Floor.lane_takeOut_ne (cause : Cause) (f : Floor) (l k : LaneIx) (r : Reason) (hk : k ≠ l) :
    (f.takeOut cause l r).lane k = f.lane k := by
  cases h : (f.lane l).entry r with
  | none => rw [Floor.takeOut_none cause h]
  | some en => rw [Floor.lane_congr (Floor.lanes_takeOut cause h), Floor.lane_modLane_ne _ _ _ _ hk]

theorem Floor.has_resolve (f : Floor) (l : LaneIx) (r q : Reason) :
    ((f.resolve l r).lane l).has q = (decide (q ≠ r) && (f.lane l).has q) := by
  unfold Lane.has Floor.resolve
  rw [Floor.entry_takeOut]
  by_cases h : q = r <;> simp [h]

/-- A resolution by a frame's processing, whether the reason is raised or not (R36, R38). -/
theorem Proc.resolve_eq (p : Proc) (l : LaneIx) (r : Reason) :
    p.resolve l r = { p with floor := p.floor.resolve l r
                             resolved := p.resolved || (p.floor.lane l).has r } := by
  unfold Proc.resolve
  split
  · rename_i h
    simp [Proc.onFloor, h]
  · rename_i h
    have hn : (p.floor.lane l).entry r = none := by simpa [Lane.has] using h
    simp [Floor.resolve, Floor.takeOut_none _ hn, h]

theorem Floor.mem_endOrder (f : Floor) (l : LaneIx) (rs : List Reason) (q : Reason) :
    q ∈ f.endOrder l rs ↔ q ∈ rs := by
  simp only [Floor.endOrder, List.mem_append, List.mem_filter]
  constructor
  · rintro (h | h)
    · simpa using h.2
    · exact h.1
  · intro h
    by_cases h2 : q ∈ (f.desk.ofLane l).map (·.2.reason)
    · exact .inl ⟨h2, by simpa using h⟩
    · refine .inr ⟨h, ?_⟩
      simp only [List.contains_eq_mem, List.mem_filter, Bool.not_eq_true', decide_eq_false_iff_not]
      exact fun h3 => h2 h3.1

/-- Reasons taken out one after another: they are gone, and every other lane is as it was. -/
theorem Floor.foldl_takeOut (cause : Cause) (l : LaneIx) (rs : List Reason) (f : Floor) :
    let g := rs.foldl (fun f r => f.takeOut cause l r) f
    (∀ q, (g.lane l).entry q = if q ∈ rs then none else (f.lane l).entry q) ∧
      ∀ k, k ≠ l → g.lane k = f.lane k := by
  induction rs generalizing f with
  | nil => simp
  | cons r rs ih =>
    have h := ih (f.takeOut cause l r)
    refine ⟨fun q => ?_, fun k hk => ?_⟩
    · rw [List.foldl_cons, h.1 q, Floor.entry_takeOut]
      by_cases h1 : q ∈ rs <;> by_cases h2 : q = r <;> simp [h1, h2]
    · rw [List.foldl_cons, h.2 k hk, Floor.lane_takeOut_ne _ _ _ _ _ hk]

theorem Floor.entry_removeAll (f : Floor) (l : LaneIx) (rs : List Reason) (q : Reason) :
    ((f.removeAll l rs).lane l).entry q = if q ∈ rs then none else (f.lane l).entry q := by
  unfold Floor.removeAll
  rw [(Floor.foldl_takeOut _ _ _ _).1]
  simp [Floor.mem_endOrder]

theorem Floor.lane_removeAll_ne (f : Floor) (l k : LaneIx) (rs : List Reason) (hk : k ≠ l) :
    (f.removeAll l rs).lane k = f.lane k :=
  (Floor.foldl_takeOut _ _ _ _).2 k hk

theorem Floor.removeAll_nil (f : Floor) (l : LaneIx) : f.removeAll l [] = f := by
  have h (q : Reason) : q ∉ f.endOrder l [] := by
    rw [Floor.mem_endOrder]
    simp
  unfold Floor.removeAll
  rw [List.eq_nil_iff_forall_not_mem.2 h]
  rfl

/-- Of the reasons of a lane that ends, HELP and LINK stay, in the order of R29 (R9, R11). -/
theorem Floor.reasons_removeEnding (f : Floor) (l : LaneIx) :
    ((f.removeAll l (f.lane l).ending).lane l).reasons =
      (f.lane l).reasons.filter (fun r => r == .help || r == .link) := by
  unfold Lane.reasons
  rw [List.filter_filter]
  refine List.filter_congr fun r _ => ?_
  rw [← Reason.outlives_eq]
  unfold Lane.has
  rw [Floor.entry_removeAll]
  by_cases h : r ∈ (f.lane l).ending
  · rw [if_pos h, ((Lane.mem_ending _ _).1 h).2]
    rfl
  · rw [if_neg h]
    cases h2 : ((f.lane l).entry r).isSome
    · simp
    · cases h3 : r.outlives
      · exact absurd ((Lane.mem_ending _ _).2 ⟨h2, h3⟩) h
      · rfl

theorem Floor.ending_removeEnding (f : Floor) (l : LaneIx) :
    ((f.removeAll l (f.lane l).ending).lane l).ending = [] := by
  unfold Lane.ending
  rw [List.filter_eq_nil_iff]
  intro r hr
  have hr : r ∈ ((f.removeAll l (f.lane l).ending).lane l).reasons := hr
  rw [Floor.reasons_removeEnding, List.mem_filter, ← Reason.outlives_eq] at hr
  simp [hr.2]

/-- What is left at a lane whose ending reasons are removed is its core, and no ending reason. -/
theorem Floor.core_removeAll (f : Floor) (l k : LaneIx) (rs : List Reason) :
    ((f.removeAll l rs).lane k).core = (f.lane k).core :=
  (Floor.of_still (Floor.still_removeAll l rs f)).2.2.2.2 k

/-! ## A lane enters CLOSED (R9) -/

/-- The lanes, the pool and the flags of a lane entered with a queue changed beside it. -/
theorem Floor.enter_withDesk (f : Floor) (l : LaneIx) (st : LaneState) (d : Desk) :
    let g : Floor := { f.enter l st with desk := d }
    (∀ k, g.lane k = (f.enter l st).lane k) ∧ g.free = f.free ∧ hasLane g.touched l = true ∧
      ((f.lane l).state ≠ st → hasLane g.laneFlags l = true) :=
  ⟨fun _ => rfl, Floor.free_enter f l st, Floor.touched_enter f l st, Floor.flag_enter f l st⟩

/-- The state, the buffers and the counters of a lane that enters CLOSED; no other lane changes. -/
theorem Floor.enterClosed_spec (f : Floor) (l : LaneIx) :
    let x := f.lane l
    let g := f.enterClosed l
    (g.lane l).state = .closed ∧ (g.lane l).deferred = [] ∧
      (g.lane l).counters =
        { x.counters with freed := bump x.counters.freed x.deferred.length } ∧
      g.free = f.free ++ x.deferred.map (·.buf) ∧ (∀ k, k ≠ l → g.lane k = f.lane k) ∧
      hasLane g.touched l = true ∧ (x.state ≠ .closed → hasLane g.laneFlags l = true) := by
  have hc := Floor.core_removeAll f l l (f.lane l).ending
  have h1 : ((f.removeAll l (f.lane l).ending).lane l).counters = (f.lane l).counters := by
    have h := congrArg Lane.counters hc
    exact h
  have h2 : ((f.removeAll l (f.lane l).ending).lane l).deferred = (f.lane l).deferred := by
    have h := congrArg Lane.deferred hc
    exact h
  have h3 : ((f.removeAll l (f.lane l).ending).lane l).state = (f.lane l).state := by
    have h := congrArg Lane.state hc
    exact h
  have h4 : (f.removeAll l (f.lane l).ending).free = f.free :=
    (Floor.of_still (Floor.still_removeAll l (f.lane l).ending f)).1
  have h5 : ∀ k, k ≠ l → (f.removeAll l (f.lane l).ending).lane k = f.lane k :=
    fun k hk => Floor.lane_removeAll_ne _ _ _ _ hk
  unfold Floor.enterClosed
  dsimp only
  generalize f.removeAll l (f.lane l).ending = a at *
  obtain ⟨e1, e2, e3, e4⟩ :=
    Floor.enter_withDesk (a.freeDeferred l) l .closed ((a.freeDeferred l).desk.clearReferred l)
  have e5 := Floor.lane_freeDeferred_self a l
  refine ⟨?_, ?_, ?_, ?_, fun k hk => ?_, e3, fun hs => e4 ?_⟩
  · rw [e1, Floor.lane_enter_self]
  · rw [e1, Floor.lane_enter_self, e5]
  · rw [e1, Floor.lane_enter_self, e5, h1, h2]
  · rw [e2]
    show a.free ++ (a.lane l).deferred.map (·.buf) = _
    rw [h2, h4]
  · rw [e1, Floor.lane_enter_ne _ _ _ _ hk, Floor.lane_freeDeferred_ne _ _ _ hk, h5 k hk]
  · rw [e5]
    dsimp only
    rw [h3]
    exact hs

/-- The queue of a lane that enters CLOSED: the ending reasons' records are gone, as lane-ended ones, and
the rest need presence by their reason (R9, R37, R77). -/
theorem Floor.desk_enterClosed (f : Floor) (l : LaneIx) :
    (f.enterClosed l).desk = (f.removeAll l (f.lane l).ending).desk.clearReferred l := by
  have h : (f.enterClosed l).desk =
      ((f.removeAll l (f.lane l).ending).freeDeferred l).desk.clearReferred l := rfl
  exact h

/-! ## The end of a transaction (R11) -/

/-- A lane without ending reasons and deferred frames enters CLOSED. -/
theorem Floor.enterClosed_bare (f : Floor) (l : LaneIx) (he : (f.lane l).ending = [])
    (hd : (f.lane l).deferred = []) :
    (f.enterClosed l).lane l =
        { f.lane l with
            state := .closed
            counters := { (f.lane l).counters with freed := bump (f.lane l).counters.freed 0 } } ∧
      (f.enterClosed l).free = f.free ∧
      (∀ k, k ≠ l → (f.enterClosed l).lane k = f.lane k) ∧
      ((f.lane l).state ≠ .closed → hasLane (f.enterClosed l).laneFlags l = true) := by
  unfold Floor.enterClosed
  rw [he, Floor.removeAll_nil]
  refine ⟨?_, ?_, fun k hk => ?_, fun hs => ?_⟩
  · show ((f.freeDeferred l).enter l .closed).lane l = _
    rw [Floor.lane_enter_self, Floor.lane_freeDeferred_self, hd]
    cases hh : f.lane l
    simp only [hh] at hd
    subst hd
    rfl
  · show ((f.freeDeferred l).enter l .closed).free = _
    rw [Floor.free_enter]
    show f.free ++ (f.lane l).deferred.map (·.buf) = _
    rw [hd]
    simp
  · show ((f.freeDeferred l).enter l .closed).lane k = _
    rw [Floor.lane_enter_ne _ _ _ _ hk, Floor.lane_freeDeferred_ne _ _ _ hk]
  · show hasLane ((f.freeDeferred l).enter l .closed).laneFlags l = true
    refine Floor.flag_enter _ _ _ ?_
    rw [Floor.lane_freeDeferred_self]
    exact hs

/-- A transaction's end before the lane enters its next state. -/
def Floor.endTxnCore (l : LaneIx) (f : Floor) : Floor :=
  (((f.removeAll l (f.lane l).ending).modLane l
    (fun x => { x with bagSettle := none, inactivity := none })).freeDeferred l).modLane l
      (fun x => { x with stack := [], pinned := none })

theorem Floor.endTxn_eq (f : Floor) (l : LaneIx) :
    f.endTxn l =
      (if (f.lane l).state.isClosing then (f.endTxnCore l).enterClosed l
        else (f.endTxnCore l).enter l .ready, reasonSet (f.lane l).ending) := rfl

theorem Floor.lane_endTxnCore (f : Floor) (l : LaneIx) :
    (f.endTxnCore l).lane l =
      { (f.removeAll l (f.lane l).ending).lane l with
          bagSettle := none, inactivity := none, deferred := []
          counters := { (f.lane l).counters with
            freed := bump (f.lane l).counters.freed (f.lane l).deferred.length }
          stack := [], pinned := none } := by
  have hc := Floor.core_removeAll f l l (f.lane l).ending
  have h1 : ((f.removeAll l (f.lane l).ending).lane l).counters = (f.lane l).counters := by
    have h := congrArg Lane.counters hc
    exact h
  have h2 : ((f.removeAll l (f.lane l).ending).lane l).deferred = (f.lane l).deferred := by
    have h := congrArg Lane.deferred hc
    exact h
  unfold Floor.endTxnCore
  simp only [Floor.lane_modLane_self, Floor.lane_freeDeferred_self, h1, h2]

theorem Floor.lane_endTxnCore_ne (f : Floor) (l k : LaneIx) (h : k ≠ l) :
    (f.endTxnCore l).lane k = f.lane k := by
  unfold Floor.endTxnCore
  simp only [Floor.lane_modLane_ne _ _ _ _ h, Floor.lane_freeDeferred_ne _ _ _ h,
    Floor.lane_removeAll_ne _ _ _ _ h]

theorem Floor.free_endTxnCore (f : Floor) (l : LaneIx) :
    (f.endTxnCore l).free = f.free ++ (f.lane l).deferred.map (·.buf) := by
  have h2 : ((f.removeAll l (f.lane l).ending).lane l).deferred = (f.lane l).deferred := by
    have h := congrArg Lane.deferred (Floor.core_removeAll f l l (f.lane l).ending)
    exact h
  show (f.removeAll l (f.lane l).ending).free ++ _ = _
  rw [(Floor.of_still (Floor.still_removeAll l (f.lane l).ending f)).1, Floor.lane_modLane_self]
  show f.free ++ ((f.removeAll l (f.lane l).ending).lane l).deferred.map (·.buf) = _
  rw [h2]

theorem Floor.ending_endTxnCore (f : Floor) (l : LaneIx) : ((f.endTxnCore l).lane l).ending = [] := by
  rw [Floor.lane_endTxnCore]
  exact Floor.ending_removeEnding f l

/-- The buffers, the counters and the reasons a transaction's end leaves; no other lane changes, and a
closing lane's flag is set. -/
theorem Floor.endTxn_spec (f : Floor) (l : LaneIx) :
    let x := f.lane l
    let g := (f.endTxn l).1
    (g.lane l).state = (if x.state.isClosing then .closed else .ready) ∧
      (g.lane l).deferred = [] ∧
      (g.lane l).counters =
        { x.counters with freed := bump x.counters.freed x.deferred.length } ∧
      g.free = f.free ++ x.deferred.map (·.buf) ∧ (∀ k, k ≠ l → g.lane k = f.lane k) ∧
      (g.lane l).ending = [] ∧ hasLane g.touched l = true ∧
      (x.state.isClosing = true → hasLane g.laneFlags l = true) := by
  have he := Floor.ending_endTxnCore f l
  have hb := Floor.enterClosed_bare (f.endTxnCore l) l he (by rw [Floor.lane_endTxnCore])
  have hs : ((f.endTxnCore l).lane l).state = (f.lane l).state := by
    rw [Floor.lane_endTxnCore]
    have h := congrArg Lane.state (Floor.core_removeAll f l l (f.lane l).ending)
    exact h
  rw [Floor.endTxn_eq]
  dsimp only
  by_cases hc : (f.lane l).state.isClosing = true
  · rw [if_pos hc, if_pos hc, hb.1, hb.2.1]
    refine ⟨rfl, ?_, ?_, Floor.free_endTxnCore f l, fun k hk => ?_, he,
      (Floor.enterClosed_spec _ _).2.2.2.2.2.1, fun _ => hb.2.2.2 ?_⟩
    · rw [Floor.lane_endTxnCore]
    · rw [Floor.lane_endTxnCore]
      simp [bump, Config.maxCounter]
    · rw [hb.2.2.1 k hk, Floor.lane_endTxnCore_ne _ _ _ hk]
    · rw [hs]
      intro e
      rw [e] at hc
      cases hc
  · rw [if_neg hc, if_neg hc, Floor.lane_enter_self, Floor.free_enter]
    refine ⟨rfl, ?_, ?_, Floor.free_endTxnCore f l, fun k hk => ?_, he, Floor.touched_enter _ _ _,
      fun h => absurd h hc⟩
    · rw [Floor.lane_endTxnCore]
    · rw [Floor.lane_endTxnCore]
    · rw [Floor.lane_enter_ne _ _ _ _ hk, Floor.lane_endTxnCore_ne _ _ _ hk]

/-- The queue after a transaction's end: the ending reasons' records are gone, as lane-ended ones; on a
closing lane the rest need presence by their reason (R9, R11, R37, R77). -/
theorem Floor.desk_endTxn (f : Floor) (l : LaneIx) :
    (f.endTxn l).1.desk = if (f.lane l).state.isClosing
      then (f.removeAll l (f.lane l).ending).desk.clearReferred l
      else (f.removeAll l (f.lane l).ending).desk := by
  rw [Floor.endTxn_eq]
  dsimp only
  split
  · rw [Floor.desk_enterClosed, Floor.ending_endTxnCore, Floor.removeAll_nil]
    rfl
  · rw [Floor.desk_enter]
    rfl

/-- A session's end changes the lane's session fields, where it has a session, and no other lane (R13). -/
theorem Floor.closeSession_lane (p : Params) (f : Floor) (l k : LaneIx) :
    (f.closeSession p l).lane k = if k = l ∧ (f.lane l).session.isSome = true
      then { f.lane l with
               session := none, presence := none, refusal := none, refusalTimer := none,
               inactivity :=
                 if (f.lane l).state.inTxn then some p.inactivity else (f.lane l).inactivity }
      else f.lane k := by
  have put (g : Floor) (d : Desk) (j : LaneIx) : ({ g with desk := d } : Floor).lane j = g.lane j := rfl
  unfold Floor.closeSession
  by_cases hs : (f.lane l).session.isSome = true
  · rw [if_pos hs]
    by_cases hk : k = l
    · subst hk
      rw [if_pos ⟨rfl, hs⟩]
      dsimp only
      rw [put, Floor.lane_flag, Floor.lane_modLane_self]
    · rw [if_neg (fun h => hk h.1)]
      dsimp only
      rw [put, Floor.lane_flag, Floor.lane_modLane_ne _ _ _ _ hk]
  · rw [if_neg hs, if_neg (fun h => hs h.2)]

theorem Floor.closeSession_free (p : Params) (f : Floor) (l : LaneIx) :
    (f.closeSession p l).free = f.free := by
  unfold Floor.closeSession
  split <;> rfl

end Sys2Proof.Machine
end

