-- ==== Sys2Proof/Laws/Receive.lean ====
section
/-! SUPPORT. Characters of a lane line received clean: what is read of one, and where reception of an answer
ends (R118, R126). -/

namespace Sys2Proof.Machine

theorem rxBits_clean (c : LineChar) : rxBits (rxClean c) = c := by
  show (c &&& c) ||| (c &&& c) ||| (c &&& c) = c
  simp

/-- The fields of a line character, bit by bit. -/
theorem lineChar_fields (b : Byte) (m : Bool) :
    (lineChar b m).extractLsb' 1 8 = b ∧ (lineChar b m).getLsbD 0 = false ∧
      (lineChar b m).getLsbD 11 = true ∧ (lineChar b m).getLsbD 9 = m ∧
      (lineChar b m).getLsbD 10 = oddParity b m := by
  unfold lineChar
  generalize oddParity b m = p
  revert b m p
  decide +kernel

theorem rxData_clean (b : Byte) (m : Bool) : rxData (rxClean (lineChar b m)) = b := by
  unfold rxData
  rw [rxBits_clean]
  exact (lineChar_fields b m).1

theorem rxFalseStart_clean (b : Byte) (m : Bool) :
    rxFalseStart (rxClean (lineChar b m)) = false := by
  unfold rxFalseStart
  rw [rxBits_clean]
  exact (lineChar_fields b m).2.1

theorem rxIntact_clean (b : Byte) (m : Bool) : rxIntact m (rxClean (lineChar b m)) = true := by
  obtain ⟨_, _, h11, h9, h10⟩ := lineChar_fields b m
  unfold rxIntact
  rw [rxData_clean, rxBits_clean, h11, h9, h10]
  simp

theorem rxNoisy_clean (c : LineChar) : rxNoisy (rxClean c) = false := by
  simp [rxNoisy, rxClean]

theorem addressChar_fields (d : DropIx) (code : BitVec 5) :
    ((addressChar d code).extractLsb' 0 3).toNat = d.1 ∧
      (addressChar d code).extractLsb' 3 5 = code := by
  revert d code
  decide +kernel

/-- No damage is found among characters received clean. -/
theorem afterDamage_clean (bs : List Byte) (more : List RxChar) :
    afterDamage bs.length (bs.map (fun b => rxClean (lineChar b false)) ++ more) = none := by
  induction bs with
  | nil => cases more <;> rfl
  | cons b bs ih =>
    show afterDamage (bs.length + 1) (_ :: (bs.map _ ++ more)) = none
    simp only [afterDamage, rxIntact_clean, if_true]
    exact ih

/-- The first damaged character ends reception. -/
theorem afterDamage_damaged {bs : List Byte} {n : Nat} {c : RxChar} (hn : bs.length < n)
    (hc : rxIntact false c = false) (more : List RxChar) :
    afterDamage n (bs.map (fun b => rxClean (lineChar b false)) ++ c :: more) = some more := by
  induction bs generalizing n with
  | nil =>
    cases n with
    | zero => simp at hn
    | succ n => simp [afterDamage, hc]
  | cons b bs ih =>
    cases n with
    | zero => simp at hn
    | succ n =>
      show afterDamage (n + 1) (_ :: (bs.map _ ++ c :: more)) = some more
      simp only [afterDamage, rxIntact_clean, if_true]
      exact ih (by simpa using hn)

end Sys2Proof.Machine
end

