-- ==== Sys2Proof/Laws/Requests.lean ====
section
/-! SUPPORT. What each shared form of a command says: when it is taken, and what a request leaves; and how
the characters of requests are read. -/

namespace Sys2Proof.Machine

/-! ## The forms of commands -/

theorem whenRunning_free {s : State} (h : s.held = none) (f : State → State) :
    whenRunning s f = .next (f s) := by
  simp [whenRunning, h]

theorem whenRunning_held {s : State} (h : s.held.isSome = true) (f : State → State) :
    whenRunning s f = .next s := by
  simp [whenRunning, h]

theorem whenUp_up {s : State} (h : s.held = none) (hu : s.linkUp = true) (f : State → State) :
    whenUp s f = .next (f s) := by
  simp [whenUp, whenRunning, h, hu]

theorem whenUp_down {s : State} (hu : s.linkUp = false) (f : State → State) :
    whenUp s f = .next s := by
  simp [whenUp, whenRunning, hu]

theorem whenDue_due {s : State} {due : State → Bool} (h : s.held = none) (hd : due s = true)
    (f : State → State) : whenDue due s f = .next (f s).finish := by
  simp [whenDue, whenRunning, h, hd]

theorem whenDue_early {s : State} {due : State → Bool} (hd : due s = false) (f : State → State) :
    whenDue due s f = .next s := by
  simp [whenDue, whenRunning, hd]

theorem turnIn_phase {s : State} {n : LineIx} {ph : Phase} {u : Turn}
    (ht : (s.line n).turn = some u) (hp : u.phase = ph) : s.turnIn n ph = some u := by
  simp only [State.turnIn, ht, hp, if_true]

theorem turnIn_other {s : State} {n : LineIx} {ph : Phase}
    (h : ∀ u, (s.line n).turn = some u → u.phase ≠ ph) : s.turnIn n ph = none := by
  unfold State.turnIn
  split
  · rename_i u hu
    exact if_neg (h u hu)
  · rfl

theorem whenPhase_in {s : State} {n : LineIx} {ph : Phase} {u : Turn} (h : s.held = none)
    (ht : (s.line n).turn = some u) (hp : u.phase = ph) (f : Turn → State → State) :
    whenPhase n ph s f = .next (f u s) := by
  simp only [whenPhase, whenRunning_free h, turnIn_phase ht hp]

theorem whenPhase_other {s : State} {n : LineIx} {ph : Phase}
    (h : ∀ u, (s.line n).turn = some u → u.phase ≠ ph) (f : Turn → State → State) :
    whenPhase n ph s f = .next s := by
  unfold whenPhase whenRunning
  simp only [turnIn_other h]
  split <;> rfl

/-- A request that is taken: what its rule gives on the state in which the receiver hunts, as the answer
stands in the statements. -/
theorem request_answers {s u : State} {kind : BitVec 6} {tag : Byte} {run : State → Executed}
    {a : Answer} {results : List Byte} (h : s.takesRequests)
    (hr : run s.hunt = { state := u.hunt, outcome := a, results := results }) :
    request kind tag run s = .next (u.answer kind tag a results) := by
  obtain ⟨h1, h2, h3, h4⟩ := h
  have h5 : ¬ Config.maxSlots ≤ s.mgmt.slots.length := by omega
  simp only [request, whenRunning_free h1, State.take, h2, h3, h5, hr]
  rfl

/-- A request whose execution changes nothing. -/
theorem request_refuses {s : State} {kind : BitVec 6} {tag : Byte} {run : State → Executed}
    {a : Answer} (h : s.takesRequests) (hr : run s.hunt = s.hunt.refuse a) :
    request kind tag run s = .next (s.answer kind tag a) :=
  request_answers h hr

theorem take_down {s : State} (h : s.linkUp = false) (kind : BitVec 6) (tag : Byte)
    (run : State → Executed) : s.take kind tag run = s := by
  simp [State.take, h]

theorem take_resetPending {s : State} (hu : s.linkUp = true) (h : s.mgmt.resetPending = true)
    (kind : BitVec 6) (tag : Byte) (run : State → Executed) : s.take kind tag run = s.hunt := by
  simp [State.take, hu, h]

theorem take_lost {s : State} (hu : s.linkUp = true) (hp : s.mgmt.resetPending = false)
    (hs : Config.maxSlots ≤ s.mgmt.slots.length) (kind : BitVec 6) (tag : Byte)
    (run : State → Executed) : s.take kind tag run = s.hunt.loseRequest.arbiter := by
  simp [State.take, hu, hp, hs]

/-! ## Characters of requests (R194) -/

theorem bankArg_bad {b : Byte} (h : 1 < b.toNat) : bankArg b = none := by
  unfold bankArg
  split <;> simp_all

theorem bankArg_num {b : Byte} {bk : BankId} (h : b.toNat = bk.num) : bankArg b = some bk := by
  cases bk <;> simp_all [bankArg, BankId.num]

theorem chanArg_bad {b : Byte} (h : b.toNat = 0 ∨ 3 < b.toNat) : chanArg b = none := by
  unfold chanArg
  split <;> simp_all

theorem chanArg_num {b : Byte} {c : ChanIx} (h : b.toNat = c.1 + 1) : chanArg b = some c := by
  unfold chanArg
  match c with
  | 0 => simp_all
  | 1 => simp_all
  | 2 => simp_all

theorem mapArg_bad {b : Byte} (h : 3 < b.toNat) : mapArg b = none := by
  have h0 : b ≠ 0 := fun e => by simp [e] at h
  unfold mapArg
  rw [if_neg h0, chanArg_bad (.inr h)]
  rfl

theorem mapArg_num {b : Byte} {c : Option ChanIx} (h : b.toNat = c.elim 0 (·.1 + 1)) :
    mapArg b = some c := by
  unfold mapArg
  cases c with
  | none =>
    have h0 : b = 0 := BitVec.eq_of_toNat_eq (by simpa using h)
    rw [if_pos h0]
  | some c =>
    have h' : b.toNat = c.1 + 1 := h
    have h0 : b ≠ 0 := fun e => by simp [e] at h'
    rw [if_neg h0, chanArg_num h']
    rfl

theorem kindArg_bad {b : Byte} (h : b.toNat = 0 ∨ 11 < b.toNat) : kindArg b = none := by
  unfold kindArg
  rw [dif_neg (by omega)]

theorem kindArg_num {b : Byte} {k : Fin 11} (h : b.toNat = k.1 + 1) : kindArg b = some k := by
  have hk := k.2
  unfold kindArg
  rw [dif_pos (by omega)]
  exact congrArg some (Fin.ext (by simp [h]))

theorem finArg_bad {n : Nat} {b : Byte} (h : n ≤ b.toNat) : finArg n b = none := by
  unfold finArg
  rw [dif_neg (by omega)]

theorem finArg_num {n : Nat} {b : Byte} {i : Fin n} (h : b.toNat = i.1) : finArg n b = some i := by
  unfold finArg
  rw [dif_pos (by omega)]
  exact congrArg some (Fin.ext h)

theorem yesNoArg_bad {b : Byte} (h : 1 < b.toNat) : yesNoArg b = none := by
  unfold yesNoArg
  split <;> simp_all

theorem yesNoArg_num {b : Byte} {v : Bool} (h : b.toNat = v.toNat) : yesNoArg b = some v := by
  cases v <;> simp_all [yesNoArg]

theorem edgeArg_bad {b : Byte} (h : 2 < b.toNat) : edgeArg b = none := by
  unfold edgeArg
  split <;> simp_all

theorem edgeArg_num {b : Byte} {e : Edge} (h : b.toNat = e.code) : edgeArg b = some e := by
  cases e <;> simp_all [edgeArg, Edge.code]

theorem levelArg_bad {b : Byte} (h : b.toNat = 0 ∨ 2 < b.toNat) : levelArg b = none := by
  unfold levelArg
  split <;> simp_all

theorem levelArg_num {b : Byte} {v : Level} (h : b.toNat = v.code) : levelArg b = some v := by
  cases v <;> simp_all [levelArg, Level.code]

theorem idArg_num {slot issue : Byte} {k : SlotIx} (hk : slot.toNat = k.1) (hi : issue.toNat ≤ 15) :
    idArg slot issue = some (k, issue.setWidth 4) := by
  simp only [idArg, finArg_num hk, if_pos hi]

theorem idArg_bad {slot issue : Byte} (h : 47 < slot.toNat ∨ 15 < issue.toNat) :
    idArg slot issue = none := by
  unfold idArg
  split
  · rfl
  · rename_i k hk
    by_cases hs : 47 < slot.toNat
    · rw [finArg_bad (by omega)] at hk
      exact absurd hk (by simp)
    · exact if_neg (by omega)

/-- A live id: its slot holds a record with that issue (R51). -/
theorem live_record {d : Desk} {k : SlotIx} {issue : Byte} {r : Record}
    (hi : d.slots[k].issue.toNat = issue.toNat) (hr : d.recAt k = some r) :
    d.live (k, issue.setWidth 4) = some r := by
  have hlt := d.slots[k].issue.isLt
  have he : d.slots[k].issue = issue.setWidth 4 := by
    apply BitVec.eq_of_toNat_eq
    rw [BitVec.toNat_setWidth, ← hi]
    omega
  unfold Desk.live
  rw [if_pos he]
  exact hr

/-- A request for a live record by a console passes the checks of R66. -/
theorem withRecord_live {s : State} {console slot issue : Byte} {c : ConsoleIx} {k : SlotIx}
    {r : Record} (hc : console.toNat = c.1) (hk : slot.toNat = k.1)
    (hi : s.floor.desk.slots[k].issue.toNat = issue.toNat) (hr : s.floor.desk.recAt k = some r)
    (run : ConsoleIx → SlotIx → Record → Executed) :
    s.withRecord console slot issue run = run c k r := by
  have hlt := s.floor.desk.slots[k].issue.isLt
  have hid : idArg slot issue = some (k, issue.setWidth 4) := idArg_num hk (by omega)
  simp only [State.withRecord, finArg_num hc, hid, live_record hi hr]

end Sys2Proof.Machine
end

