-- ==== Sys2Proof/Tests/Slice0.lean ====
section
/-! SUPPORT. The model's own tests: the smoke of the well-formedness checks, a step of each command on a
small state, and for each statement of the certificate states and operands that meet its hypotheses, clause
by clause. -/

-- One theorem at a time: many kernel evaluations at once run out of threads.
set_option Elab.async false

namespace Sys2Proof.Tests

open Sys2Proof Sys2Proof.Machine

/-! ## States -/

/-- The state after a command. -/
def after (c : Instr) (s : State) : State :=
  match exec c s with
  | .next t => t
  | .fault _ => s
  | .refused _ => s

/-- The outcome and the results of the newest response. -/
def reply (c : Instr) (s : State) : Option (Answer × List Byte) :=
  (after c s).mgmt.slots.getLast?.map (fun r => (r.outcome, r.results))

/-- The outcome of the newest response. -/
def outcome (c : Instr) (s : State) : Option Answer := (reply c s).map (·.1)

/-- Reset, with the link UP. -/
def up : State := { State.reset with link := { level := some true, prev := some true } }

/-- A state with a lane changed. -/
def withLane (s : State) (l : LaneIx) (g : Lane → Lane) : State := s.onFloor (fun f => f.modLane l g)

/-- A state with a record put into a slot. -/
def withRecord (s : State) (k : SlotIx) (r : Record) : State :=
  s.onDesk (fun d => { d with slots := upd d.slots k { issue := 3, rec? := some r } })

/-- A state with a console in a state. -/
def withConsole (s : State) (c : ConsoleIx) (st : ConsoleState) : State :=
  s.onDesk (fun d => d.modConsole c (fun x => { x with state := st, saved := some (false, .noneYet) }))

/-- A state with a channel changed. -/
def withChan (s : State) (c : ChanIx) (g : Channel → Channel) : State :=
  s.onFloor (fun f => f.modChan c g)

/-- A record of a lane and reason in a state. -/
def recordOf (l : LaneIx) (r : Reason) (st : RecState) : Record :=
  { lane := l, reason := r, base := 1, current := 1, stamp := 5, state := st
    needsPresence := r.needsPresence, detail := none }

/-- A queued HELP frame's event. -/
def anEvent : LaneEvent :=
  { frame := { buf := 63, lane := 1, seq := 0, body := .help, gap := false }
    txn := none, stamp := 0, annos := 0, raised := 0, unresolved := 0 }

/-- A message being sent. -/
def sendingOf (s : State) (what : TxWhat) : State :=
  s.send { what := what, channel := 0, kind := 32, tag := 0, content := [] }

/-- The link UP and, on line 0, a lane of each state: 0 CLOSED, 1 READY, 2 SCANNING, 3 PAYING, 4
CLOSING_SCAN, 5 CLOSING_PAY; bank A CURRENT, bank B LOADING; channel 1 DISABLED, 2 PENDING, 3 OPEN with
one event. -/
def busy : State :=
  let s := { up with
    tables := { up.tables with
      bankA := { state := .current, groups := [(112, { age := false, attendant := false, exempt := false
                                                       tol := 15 })] }
      bankB := { state := .loading, declGroups := 0, declWatch := 0 }
      badges := [(2020, .two), (4411, .one)] } }
  let txn (st : LaneState) (x : Lane) : Lane :=
    { x with state := st, txn := 7, pinned := some .a, bagSettle := some 0
             totals := { itemCount := 1, value := 250, expected := 500 } }
  let s := withLane s 1 (fun x => { x with state := .ready, echo := some 0 })
  let s := withLane s 2 (txn .scanning)
  let s := withLane s 3 (fun x =>
    let y := txn .paying x
    { y with totals := { y.totals with bag := some 560 }, inactivity := some 0 })
  let s := withLane s 4 (fun x =>
    let y := txn .closingScan x
    { y with totals := { y.totals with bag := some 490 } })
  let s := withLane s 5 (fun x => txn .closingPay x)
  let s := withLane s 6 (fun x =>
    { x with state := .ready, session := some { badge := 4411, level := .one, opened := 0 }
             presence := some 0, refusal := some .levelTooLow, refusalTimer := some 0 })
  let s := withChan s 1 (fun c => { c with state := .pending })
  let s := withChan s 2 (fun c => { c with state := .opened, credit := 60, queue := [anEvent] })
  s.onFloor (fun f => { f with free := f.free.dropLast })

/-- Records in slots 0 to 6, with the consoles they name: WAITING, OFFERED sent and unsent, CLAIMED,
ATTENDING, a LINK record and one that needs presence. -/
def staffed : State :=
  let s := withRecord busy 0 { recordOf 2 .weight .waiting with escal := some 0 }
  let s := withRecord s 1 { recordOf 3 .payFail (.offered 0 true) with offer := some 0 }
  let s := withRecord s 2 { recordOf 1 .help (.claimed 1) with claim := some 0 }
  let s := withRecord s 3 (recordOf 6 .help (.attending (some 2)))
  let s := withRecord s 4 (recordOf 4 .highValue (.offered 3 false))
  let s := withRecord s 5 { recordOf 5 .link (.claimed 1) with current := 3, escal := some 0 }
  let s := withRecord s 6 (recordOf 5 .age (.claimed 1))
  let s := withConsole s 0 (.offered 1)
  let s := withConsole s 1 (.busy 2)
  let s := withConsole s 2 (.busy 3)
  let s := withConsole s 3 (.offered 4)
  withLane s 1 (fun x => { x with help := { screen := true } }.setEntry .help
    (some { stamp := 5, queued := true, detail := none }))

/-- A turn of drop 1 in a phase. -/
def turnIn (ph : Phase) : Turn :=
  { drop := 1, phase := ph, standby := false, direct := [], poll := [] }

/-- Line 0 with a turn of drop 1 in a phase, its slot holding a buffer. -/
def polling (ph : Phase) : State :=
  { busy with floor := { busy.floor with free := busy.floor.free.drop 1 } }.modLine 0
    (fun x => { x with turn := some (turnIn ph), slot := some 0 })

/-! ## Well-formedness: each check refuses an ill-formed command -/

theorem test_wf_enable : (Instr.channelSetEnable 0 1 0).wellFormed = false ∧
    (Instr.channelSetEnable 0 1 1).wellFormed = true := by decide
theorem test_wf_badgeMode : (Instr.badgeClear 0 1 0).wellFormed = false ∧
    (Instr.badgeClear 0 0 0).wellFormed = true := by decide
theorem test_wf_force : (Instr.laneClose 0 0 1).wellFormed = false ∧
    (Instr.laneClose 0 0 0).wellFormed = true := by decide
theorem test_wf_action : (Instr.resolveClear 0 0 0 0 1).wellFormed = false ∧
    (Instr.resolveClear 0 0 0 0 0).wellFormed = true := by decide
theorem test_wf_groups :
    (Instr.loadGroups 0 0 (List.replicate 30 { code := 0, flags := 0, tol := 0 })).wellFormed = false ∧
    (Instr.loadGroups 0 0 (List.replicate 29 { code := 0, flags := 0, tol := 0 })).wellFormed = true := by
  decide +kernel
theorem test_wf_watch :
    (Instr.loadWatch 0 0 (List.replicate 15 { article := 0, flags := 0, tol := 0 })).wellFormed = false ∧
    (Instr.loadWatch 0 0 (List.replicate 14 { article := 0, flags := 0, tol := 0 })).wellFormed = true := by
  decide +kernel
theorem test_wf_unknown : (Instr.unknownRequest 0 31 []).wellFormed = false ∧
    (Instr.unknownRequest 0 32 (List.replicate 121 0)).wellFormed = false ∧
    (Instr.unknownRequest 0 32 (List.replicate 120 0)).wellFormed = true := by decide +kernel
theorem test_wf_answer :
    (Instr.goodAnswer 0 (List.replicate 45 (rxClean 0))).wellFormed = false ∧
    (Instr.goodAnswer 0 (List.replicate 44 (rxClean 0))).wellFormed = true := by decide +kernel

/-! ## Formats: characters written out from sections 11.1 and 11.2 -/

theorem test_crc8 : crc8 [0x31, 0x32, 0x33, 0x34, 0x35, 0x36, 0x37, 0x38, 0x39] = 0xA2 := by
  decide +kernel
theorem test_crc16 : crc16 [0x31, 0x32, 0x33, 0x34, 0x35, 0x36, 0x37, 0x38, 0x39] = 0x29B1 := by
  decide +kernel
theorem test_lineChar : lineChar 0x41 true = 0b101010000010#12 := by decide +kernel
theorem test_request_credit : requestOf { kind := 1, tag := 9, content := [2, 40] } = .credit 9 2 40 := by
  decide +kernel
theorem test_request_set : requestOf { kind := 2, tag := 9, content := [2, 0] } =
    .channelSetDisable 9 2 := by decide +kernel
theorem test_request_length : requestOf { kind := 1, tag := 9, content := [2] } =
    .unknownRequest 9 1 [2] := by decide +kernel
theorem test_request_groups :
    requestOf { kind := 5, tag := 9, content := [0, 1, 0x2C, 5, 20] } =
      .loadGroups 9 0 [{ code := 300, flags := 5, tol := 20 }] := by decide +kernel
theorem test_frame_bag : parseFrame 3 [0, 1, 0xF4, 1] = some (.bag 500 true) ∧
    parseFrame 3 [1, 0x86, 0xA0, 1] = none := by decide +kernel
theorem test_word_none : decodeTableWord 8 1 = none := rfl

/-! ## One step of each command -/

theorem test_powerOn : ((after (.powerOn false) busy).floor.free.length,
    ((after (.powerOn false) busy).line 2).turn.map (·.drop)) = (60, some 0) := by decide +kernel
theorem test_powerOn_held : (after (.powerOn true) busy).held = some .power := by decide +kernel
theorem test_resetPinLow : (after .resetPinLow (polling .window)).held = some .pin ∧
    ((after .resetPinLow (polling .window)).line 0).turn = none := by decide +kernel
theorem test_resetPinHigh :
    (after .resetPinHigh { busy with held := some .pin }).mgmt.cause = .pin ∧
    (after .resetPinHigh { busy with held := some .pin }).tables.bankA.state = .ready ∧
    (after .resetPinHigh { busy with held := some .pin }).tables.bankB.state = .invalid := by
  decide +kernel
theorem test_tick : (after (.tick true) busy).storeTime = 1 ∧
    (after (.tick true) { busy with storeTime := 0xFFFFFFFF }).storeTime = 0 := by decide +kernel
theorem test_tick_link : (after (.tick false) { busy with link := { busy.link with
    prev := some false } }).link.due = some false := by decide +kernel
theorem test_linkDown : let t := after .linkDown { staffed with link := { staffed.link with
    due := some false } }
    t.linkUp = false ∧ t.floor.chans[(2 : Fin 3)].state = .pending ∧
      (t.floor.desk.console 1).state = .absent ∧
      (t.floor.desk.recAt 2).map (·.state) = some .waiting := by decide +kernel
theorem test_linkUp : (after .linkUp { State.reset with link := { State.reset.link with
    due := some true } }).linkUp = true := by decide +kernel
theorem test_callInput :
    let s := withLane busy 1 (fun x => { x with call := { enabled := true, edge := .fall
                                                          prev := some false, level := some true } })
    ((after (.callInputSample 0) s).floor.lane 1).help = { button := true } ∧
    ((after (.callInputSample 0) s).floor.lane 1).call.pending = true := by decide +kernel
theorem test_startCharacter : (after .startCharacter busy).link.rx = .message 0 := by decide +kernel
theorem test_skipped : (after .skippedCharacter busy).link.skipped = 1 := by decide +kernel
theorem test_badLength : (after .badLength busy).link.badLength = 1 := by decide +kernel
theorem test_truncated : (after .truncated { busy with link := { busy.link with
    rx := .message 2 } }).link.truncated = 1 := by decide +kernel
theorem test_badCheck : (after .badCheck busy).link.badCheck = 1 := by decide +kernel
theorem test_wrongChannel : (after .wrongChannel busy).link.wrongChannel = 1 := by decide +kernel

/-- Every response slot reserved. -/
def crowded : State :=
  { busy with mgmt := { busy.mgmt with
      slots := List.replicate 8 { tag := 0, kind := 1, outcome := .done, results := [] } } }

theorem test_lostRequest : (after .lostRequest crowded).mgmt.lost = 1 ∧
    (after (.laneOpen 0 0) crowded).mgmt.lost = 1 := by decide +kernel
theorem test_lost_saturates :
    let s := { crowded with mgmt := { crowded.mgmt with lost := 65534 } }
    (after .lostRequest s).mgmt.lostSeen = true := by decide +kernel
theorem test_unknownRequest : outcome (.unknownRequest 1 40 []) busy = some .badArgument := by
  decide +kernel
theorem test_credit : outcome (.credit 1 2 5) busy = some .done ∧
    (after (.credit 1 2 5) busy).floor.chans[(1 : Fin 3)].state = .opened ∧
    (after (.credit 1 3 63) busy).floor.chans[(2 : Fin 3)].credit = 63 := by decide +kernel
theorem test_credit_disabled : outcome (.credit 1 1 5) busy = some .badState := by decide +kernel
theorem test_channelSetEnable :
    (after (.channelSetEnable 1 1 1) busy).floor.chans[(0 : Fin 3)].state = .pending := by
  decide +kernel
theorem test_channelSetDisable :
    let t := after (.channelSetDisable 1 3) busy
    t.floor.chans[(2 : Fin 3)].discarded = 1 ∧ t.floor.free.length = 64 := by decide +kernel
theorem test_mapSet : (after (.mapSet 1 3 1) busy).map[(2 : Fin 11)] = some 0 ∧
    outcome (.mapSet 1 12 1) busy = some .badArgument := by decide +kernel
theorem test_loadBegin_conflict : outcome (.loadBegin 1 1 4 1) busy = some .loadConflict ∧
    (after (.loadBegin 1 1 4 1) busy).tables.bankB.state = .invalid ∧
    (after (.loadBegin 1 1 4 1) busy).mgmt.conflictSeen = true := by decide +kernel
theorem test_loadBegin : outcome (.loadBegin 1 1 4 1) up = some .done ∧
    outcome (.loadBegin 1 0 4 1) busy = some .badState := by decide +kernel
theorem test_loadGroups :
    reply (.loadGroups 1 1 [{ code := 7, flags := 1, tol := 5 }, { code := 7, flags := 2, tol := 6 }])
      busy = some (.done, [0, 1, 0]) := by decide +kernel
theorem test_loadWatch :
    reply (.loadWatch 1 1 [{ article := 77, flags := 9, tol := 5 }]) busy =
      some (.done, [0, 0, 1]) := by decide +kernel
theorem test_loadEnd : (after (.loadEnd 1 1) busy).tables.bankB.state = .ready := by decide +kernel
theorem test_loadAbort : (after (.loadAbort 1 1) busy).tables.bankB.state = .invalid ∧
    outcome (.loadAbort 1 0) busy = some .badState := by decide +kernel
theorem test_commit :
    let s := { busy with tables := { busy.tables with bankB := { state := .ready } } }
    (after (.commit 1 1) s).tables.bankB.state = .current ∧
    (after (.commit 1 1) s).tables.bankA.state = .ready := by decide +kernel
theorem test_badgeSet : (after (.badgeSet 1 4411 2) busy).tables.level 4411 = some .two ∧
    ((after (.badgeSet 1 4411 2) busy).floor.lane 6).session.map (·.level) = some .two := by
  decide +kernel
theorem test_badgeClear : ((after (.badgeClear 1 0 4411) busy).floor.lane 6).session = none ∧
    outcome (.badgeClear 1 0 9) busy = some .notFound := by decide +kernel
theorem test_badgeClearAll : (after (.badgeClearAll 1 0) busy).tables.badges = [] := by decide +kernel
theorem test_zoneSet : (after (.zoneSet 1 2 5) busy).tables.zones[(2 : Fin 4)] = 5 := by
  decide +kernel
theorem test_laneOpen : ((after (.laneOpen 1 0) busy).floor.lane 0).state = .ready ∧
    ((after (.laneOpen 1 4) busy).floor.lane 4).state = .scanning := by decide +kernel
theorem test_laneOpen_noTables : outcome (.laneOpen 1 0) up = some .noTables := by decide +kernel
theorem test_laneClose : ((after (.laneClose 1 1 0) busy).floor.lane 1).state = .closed ∧
    ((after (.laneClose 1 3 0) busy).floor.lane 3).state = .closingPay := by decide +kernel
theorem test_laneCloseForce : ((after (.laneCloseForce 1 2) busy).floor.lane 2).state = .closed := by
  decide +kernel
theorem test_laneReset : ((after (.laneReset 1 3) busy).floor.lane 3).state = .ready ∧
    ((after (.laneReset 1 3) busy).floor.lane 3).totals = {} ∧
    ((after (.laneReset 1 4) busy).floor.lane 4).state = .closed := by decide +kernel
theorem test_inputSet : ((after (.inputSet 1 2 1 2) busy).floor.lane 2).call.edge = .both := by
  decide +kernel
theorem test_lineQuiet : outcome (.lineQuiet 1 0) busy = some .badState ∧
    ((after (.lineQuiet 1 2) busy).line 2).state = .quiet := by decide +kernel
theorem test_lineWake :
    ((after (.lineWake 1 2) (after (.lineQuiet 1 2) busy)).line 2).settle = some 2 := by decide +kernel
theorem test_consoleOn : ((after (.consoleOn 1 0) busy).floor.desk.console 0).state = .free := by
  decide +kernel
theorem test_consoleOff : ((after (.consoleOff 1 1) staffed).floor.desk.console 1).state = .absent ∧
    ((after (.consoleOff 1 1) staffed).floor.desk.recAt 2).map (·.state) = some .waiting := by
  decide +kernel
theorem test_claim : ((after (.claim 1 3 0 3) staffed).floor.desk.recAt 0).map (·.state) =
    some (.claimed 3) ∧ outcome (.claim 1 1 0 3) staffed = some .badState := by decide +kernel
theorem test_decline : ((after (.decline 1 0 1 3) staffed).floor.desk.recAt 1).map (·.declined) =
    some 1 := by decide +kernel
theorem test_release : outcome (.release 1 1 2 3) staffed = some .done ∧
    outcome (.release 1 2 3 3) staffed = some .badState := by decide +kernel
theorem test_resolveClear : ((after (.resolveClear 1 1 2 3 0) staffed).floor.lane 1).has .help = false ∧
    outcome (.resolveClear 1 1 5 3 0) staffed = some .badState ∧
    outcome (.resolveClear 1 1 6 3 0) staffed = some .presenceRequired := by decide +kernel
theorem test_resolveRefer :
    ((after (.resolveRefer 1 1 2 3) staffed).floor.desk.recAt 2).map (·.needsPresence) =
      some true := by decide +kernel
theorem test_readLane : (reply (.readLane 1 2 1) busy) = some (.done, [0, 0]) ∧
    outcome (.readLane 1 24 0) busy = some .badArgument := by decide +kernel
theorem test_readQueue : reply (.readQueue 1 1 0) busy = some (.done, [0]) := by decide +kernel
theorem test_readStatus : outcome (.readStatus 1 4) busy = some .done ∧
    outcome (.readStatus 1 5) busy = some .badArgument := by decide +kernel
theorem test_readCounters :
    (after (.readCounters 1 28 1) { busy with poolEmpty := 9 }).poolEmpty = 0 := by decide +kernel
theorem test_setParam : (after (.setParam 1 1 500) busy).params.baseTolerance = 500 ∧
    outcome (.setParam 1 1 501) busy = some .badArgument := by decide +kernel
theorem test_setTime : (after (.setTime 1 77) busy).storeTime = 77 := by decide +kernel
theorem test_partReset : (after (.partReset 1) busy).mgmt.resetPending = true := by decide +kernel
theorem test_messageComplete :
    (after .messageComplete (sendingOf busy .partNotice)).sending = some (.laneEvent 2) := by
  decide +kernel
theorem test_responseComplete :
    (after .responseComplete (sendingOf crowded .response)).mgmt.slots.length = 7 := by decide +kernel
theorem test_laneEventComplete :
    let t := after .laneEventComplete (sendingOf busy (.laneEvent 2))
    t.floor.chans[(2 : Fin 3)].sent = 1 ∧ t.floor.free.length = 64 := by decide +kernel
theorem test_bagSettleExpiry :
    ((after (.bagSettleExpiry 2) busy).floor.lane 2).entry .weight =
      some { stamp := 0, queued := true, detail := some (.grams (-500)) } ∧
    ((after (.bagSettleExpiry 4) busy).floor.lane 4).has .weight = false := by decide +kernel
theorem test_inactivityExpiry : ((after (.inactivityExpiry 3) busy).floor.lane 3).has .idle = true := by
  decide +kernel
theorem test_presenceExpiry : ((after (.presenceExpiry 6) busy).floor.lane 6).session = none ∧
    (after (.presenceExpiry 6) busy).floor.presence.sessionExpiries = 1 := by decide +kernel
theorem test_refusalMessageExpiry :
    ((after (.refusalMessageExpiry 6) busy).floor.lane 6).refusal = none := by decide +kernel
theorem test_escalationExpiry :
    ((after (.escalationExpiry 0) staffed).floor.desk.recAt 0).map (fun r => (r.current, r.escal)) =
      some (2, some 300) := by decide +kernel
theorem test_offerExpiry :
    ((after (.offerExpiry 1) staffed).floor.desk.recAt 1).map (·.declined) = some 1 ∧
    (after (.offerExpiry 1) staffed).floor.desk.offerExpiries = 1 := by decide +kernel
theorem test_claimExpiry :
    ((after (.claimExpiry 2) staffed).floor.desk.recAt 2).map (·.current) = some 2 := by decide +kernel

/-- Line 3 with its wake settle timer at its end. -/
def waking : State := busy.modLine 3 (fun x => { x with state := .waking, settle := some 0 })

theorem test_wakeSettleExpiry : ((after (.wakeSettleExpiry 3) waking).line 3).state = .active ∧
    ((after (.wakeSettleExpiry 3) waking).line 3).turn.isSome = true := by decide +kernel
theorem test_pollEnd : ((after (.pollEnd 0) (polling .sending)).line 0).turn.map (·.phase) =
    some .window := by decide +kernel
theorem test_answerStart : ((after (.answerStart 0) (polling .window)).line 0).turn.map (·.phase) =
    some .receiving := by decide +kernel
theorem test_miss : ((after (.miss 0) (polling .window)).floor.lane 1).drop.link = .silent ∧
    ((after (.miss 0) (polling .window)).line 0).counters.misses = 1 := by decide +kernel
theorem test_damagedAnswer :
    ((after (.damagedAnswer 0) (polling .receiving)).floor.lane 1).drop.quality = 4 := by decide +kernel
theorem test_answerTruncated :
    ((after (.answerTruncated 0) (polling .receiving)).line 0).counters.damaged = 1 := by decide +kernel
theorem test_goodAnswer_nil :
    ((after (.goodAnswer 0 (nilAnswer 1 5)) (polling .receiving)).floor.lane 1).echo = some 5 := by
  decide +kernel
theorem test_goodAnswer_help :
    let t := after (.goodAnswer 0 (frameAnswer 1 5 2 5 [])) (polling .receiving)
    (t.floor.lane 1).drop.lastSeq = some 2 ∧ (t.floor.lane 1).help = { screen := true } := by
  decide +kernel
/-- Characters after an answer found damaged are strays, as those after a good one are (R126, R132). -/
theorem test_goodAnswer_strays :
    let strays (cs : List RxChar) : Nat :=
      ((after (.goodAnswer 0 cs) (polling .receiving)).line 0).counters.strays
    let one := rxClean (lineChar 9 false)
    strays (nilAnswer 2 5) = 1 ∧ strays (nilAnswer 1 5 ++ [one, one]) = 2 ∧
      strays ((frameAnswer 1 5 2 5 []).dropLast ++ [rxClean (lineChar 9 true), one]) = 1 := by
  decide +kernel
theorem test_lineBreak : ((after (.lineBreak 0) (polling .window)).line 0).counters.breaks = 1 ∧
    ((after (.lineBreak 0) (polling .window)).line 0).attention = .active 1 := by decide +kernel
theorem test_stray : ((after (.stray 2 (rxClean (lineChar 9 false))) busy).line 2).counters.strays = 1 := by
  decide +kernel
theorem test_idleRoundEnd :
    let s := busy.modLine 2 (fun x => { x with idleWait := true })
    ((after (.idleRoundEnd 2) s).line 2).turn.map (·.drop) = some 0 := by decide +kernel

/-! ## Witnesses: states and operands that meet the hypotheses of each statement, clause by clause -/

theorem witness_StepRunsFrontCommand :
    ({ busy with pending := [.tick true, .linkUp] } : State).pending = .tick true :: [.linkUp] ∧
    busy.pending = [] := ⟨rfl, rfl⟩

theorem witness_PowerOnAndResetPin : busy.held = none ∧
    ({ busy with held := some .pin } : State).held = some .pin ∧
    ({ busy with held := some .power } : State).held = some .power ∧
    ({ busy with held := some .power } : State).held.isSome = true ∧
    (∀ low, Instr.tick true ≠ .powerOn low) ∧ Instr.tick true ≠ .resetPinHigh :=
  ⟨rfl, rfl, rfl, rfl, by decide, by decide⟩

/-- The last response is being sent, a PART RESET pending, `n` responses reserved. -/
def resetting (n : Nat) : State :=
  sendingOf { busy with mgmt := { busy.mgmt with
    resetPending := true
    slots := List.replicate n { tag := 0, kind := 1, outcome := .done, results := [] } } } .response

theorem witness_PartResetTakesEffect :
    ((resetting 1).held = none ∧ (resetting 1).mgmt.resetPending = true ∧
      (resetting 1).sending = some .response ∧ (resetting 1).mgmt.slots.length ≤ 1) ∧
    ((resetting 2).sending = some .response ∧ 1 < (resetting 2).mgmt.slots.length) ∧
    ({ resetting 1 with link := { (resetting 1).link with due := some false } } : State).link.due =
      some false := by decide +kernel

/-- The link with a last sample, a filtered level and a due change. -/
def filter (prev level due : Option Bool) : State :=
  { busy with link := { busy.link with prev := prev, level := level, due := due } }

theorem witness_TickCounts : busy.held = none ∧
    (filter none none none).link.prev ≠ some true ∧
    (filter (some true) (some true) none).link.level = some true ∧
    ((filter (some false) (some true) none).link.prev = some false ∧
      (filter (some false) (some true) none).link.level = some (!false)) ∧
    ((filter (some true) none none).link.prev = some true ∧
      (filter (some true) none none).link.level = none) := by decide +kernel

theorem witness_LinkChangesTaken : (filter (some true) (some false) (some true)).held = none ∧
    (filter (some true) (some false) (some true)).link.due = some true ∧
    busy.link.due ≠ some true ∧ busy.link.due ≠ some false ∧
    ((filter (some false) (some true) (some false)).link.due = some false ∧
      (filter (some false) (some true) (some false)).mgmt.resetPending = false) := by decide +kernel

/-- Channel 3 DISABLED while its one event is in transmission. -/
def cutEvent : State :=
  sendingOf (withChan busy 2 (fun c => { c with state := .disabled, credit := 0 })) (.laneEvent 2)

theorem witness_LinkDownEffects : busy.floor.chans[(2 : Fin 3)].state ≠ .disabled ∧
    (busy.floor.chans[(0 : Fin 3)].state = .disabled ∧ busy.sending ≠ some (.laneEvent 0)) ∧
    (cutEvent.floor.chans[(2 : Fin 3)].state = .disabled ∧
      cutEvent.sending = some (.laneEvent 2) ∧
      cutEvent.floor.chans[(2 : Fin 3)].queue = anEvent :: []) ∧
    (let bare := withChan cutEvent 2 (fun c => { c with queue := [] })
     bare.floor.chans[(2 : Fin 3)].state = .disabled ∧ bare.sending = some (.laneEvent 2) ∧
      bare.floor.chans[(2 : Fin 3)].queue = [] ∧ bare.goDown.floor.free = bare.floor.free) := by
  decide +kernel

theorem witness_CallInputsSampled : busy.held = none ∧
    (let c : CallInput := { enabled := true, edge := .fall, prev := some false, level := some true }
     c.enabled = true ∧ c.pending = false ∧ c.prev = some false ∧ c.level = some (!false) ∧
      (c.edge = .both ∨ (false = true ∧ c.edge = .rise) ∨ (false = false ∧ c.edge = .fall))) ∧
    ¬((busy.floor.lane 0).call.enabled = true) := by decide +kernel

/-- The receiver in a message, `n` ticks since its last character. -/
def receiving (n : Nat) : State := { busy with link := { busy.link with rx := .message n } }

theorem witness_ReceiverFindings :
    (State.reset.held = none ∧ State.reset.linkUp = false ∧ Instr.badLength.isFinding = true ∧
      (Instr.credit 1 2 3).wire.isSome = true) ∧
    (busy.held = none ∧ busy.linkUp = true ∧ busy.link.rx = .hunt) ∧
    ((receiving 2).linkUp = true ∧ (receiving 2).link.rx ≠ .hunt ∧
      (receiving 2).link.rx = .message 2 ∧ (receiving 1).link.rx = .message 1) := by decide +kernel

theorem witness_RequestIntake :
    ((Instr.laneOpen 1 0).wire.isSome = true ∧ (Instr.laneOpen 1 0).wellFormed = true) ∧
    ((resetting 1).held = none ∧ (resetting 1).linkUp = true ∧
      (resetting 1).mgmt.resetPending = true) ∧
    (crowded.held = none ∧ crowded.linkUp = true ∧ crowded.mgmt.resetPending = false ∧
      8 ≤ crowded.mgmt.slots.length) ∧
    (busy.mgmt.resetPending = false ∧ busy.mgmt.slots.length < 8) ∧
    (catalogueRequest (32 : BitVec 6).toNat 1 [] = none ∧ busy.takesRequests) ∧
    catalogueRequest (1 : BitVec 6).toNat 1 [2] = none := by decide +kernel

/-! The part takes requests in `busy` and `staffed`; the operands of each clause follow. -/

theorem witness_takesRequests : busy.takesRequests ∧ staffed.takesRequests ∧ up.takesRequests ∧
    { busy with mgmt := { busy.mgmt with
      slots := List.replicate 7 { tag := 0, kind := 1, outcome := .done, results := [] } } : State
      }.takesRequests := by decide +kernel

theorem witness_CreditAndMapSet : (0 : Byte).toNat = 0 ∧ 3 < (4 : Byte).toNat ∧
    63 < (64 : Byte).toNat ∧
    ((1 : Byte).toNat = (0 : ChanIx).1 + 1 ∧ busy.floor.chans[(0 : ChanIx)].state = .disabled) ∧
    ((3 : Byte).toNat = (2 : ChanIx).1 + 1 ∧ busy.floor.chans[(2 : ChanIx)].state ≠ .disabled) ∧
    (0 : Byte).toNat = 0 ∧ (1 ≤ (1 : Byte).toNat ∧ (63 : Byte).toNat ≤ 63) ∧
    11 < (12 : Byte).toNat ∧ 3 < (4 : Byte).toNat ∧
    ((11 : Byte).toNat = (10 : Fin 11).1 + 1 ∧
      (3 : Byte).toNat = (some (2 : ChanIx)).elim 0 (·.1 + 1)) ∧
    ((1 : Byte).toNat = (0 : Fin 11).1 + 1 ∧
      (0 : Byte).toNat = (none : Option ChanIx).elim 0 (·.1 + 1)) := by decide +kernel

theorem witness_ChannelSets : (0 : Byte).toNat = 0 ∧ 3 < (4 : Byte).toNat ∧ 2 ≤ (2 : Byte).toNat ∧
    ((1 : Byte).toNat = (0 : ChanIx).1 + 1 ∧ busy.floor.chans[(0 : ChanIx)].state = .disabled) ∧
    ((3 : Byte).toNat = (2 : ChanIx).1 + 1 ∧ busy.floor.chans[(2 : ChanIx)].state ≠ .disabled) ∧
    (sendingOf busy (.laneEvent 2)).sending = some (.laneEvent 2) := by decide +kernel

/-- Both banks EMPTY but bank B, READY; no lane pins a bank. -/
def idleBanks : State := { up with tables := { up.tables with bankB := { state := .ready } } }

/-- Bank A LOADING with nothing written. -/
def loadingA : State := { up with tables := { up.tables with
  bankA := { state := .loading, declGroups := 1, declWatch := 0 } } }

/-- Bank A pinned and READY. -/
def pinnedA : State := { busy with tables := { busy.tables with
  bankA := { busy.tables.bankA with state := .ready } } }

theorem witness_LoadBegins : 1 < (2 : Byte).toNat ∧ 1024 < (1025 : BitVec 16).toNat ∧
    128 < (129 : Byte).toNat ∧
    ((0 : Byte).toNat = BankId.a.num ∧ (1024 : BitVec 16).toNat ≤ 1024 ∧ (128 : Byte).toNat ≤ 128) ∧
    (busy.tables.bank .a).state = .current ∧
    ((pinnedA.tables.bank .a).state ≠ .current ∧ 0 < pinnedA.floor.pinCount .a) ∧
    ((loadingA.tables.bank .b).state ≠ .current ∧ loadingA.floor.pinCount .b = 0 ∧
      (loadingA.tables.bank .a).state = .loading ∧
      (loadingA.tables.bank BankId.a.other).state ≠ .loading) ∧
    ((idleBanks.tables.bank .a).state ≠ .loading ∧ (idleBanks.tables.bank .b).state ≠ .loading ∧
      idleBanks.takesRequests) := by decide +kernel

theorem witness_LoadGroupsWrites :
    (List.replicate 9 (GroupWrite.mk 0 0 0)).length = 9 ∧
    1023 < (GroupWrite.mk 1024 0 0).code.toNat ∧ 250 < (GroupWrite.mk 0 0 251).tol.toNat ∧
    ((1 : Byte).toNat = BankId.b.num ∧ 1 ≤ [GroupWrite.mk 1023 7 250].length ∧
      ∀ e ∈ [GroupWrite.mk 1023 7 250], e.code.toNat ≤ 1023 ∧ e.tol.toNat ≤ 250) ∧
    (busy.tables.bank .a).state ≠ .loading ∧ (busy.tables.bank .b).state = .loading := by
  decide +kernel

/-- A bank whose watch list is full: articles 0 to 127. -/
def fullWatch : Bank :=
  { watch := (List.range 128).map fun a =>
      (a, { refer := false, age := false, exempt := false, tol := none }) }

theorem witness_LoadWatchWrites :
    ((WatchWrite.mk 0 8 251).flags.getLsbD 3 = true ∧ 250 < (WatchWrite.mk 0 8 251).tol.toNat) ∧
    (∀ e ∈ [WatchWrite.mk 5 8 250, WatchWrite.mk 6 0 255],
      e.flags.getLsbD 3 = true → e.tol.toNat ≤ 250) ∧
    fullWatch.watch.length = 128 ∧
    (fullWatch.writeWatch [WatchWrite.mk 127 0 0, WatchWrite.mk 128 0 0]).2 = false ∧
    (fullWatch.writeWatch [WatchWrite.mk 127 0 0]).2 = true := by decide +kernel

theorem witness_LoadEnds :
    ((busy.tables.bank .b).state = .loading ∧
      (busy.tables.bank .b).groups.length = (busy.tables.bank .b).declGroups ∧
      (busy.tables.bank .b).watch.length = (busy.tables.bank .b).declWatch) ∧
    ((loadingA.tables.bank .a).state = .loading ∧ loadingA.takesRequests ∧
      (loadingA.tables.bank .a).groups.length ≠ (loadingA.tables.bank .a).declGroups) ∧
    (busy.tables.bank .a).state ≠ .loading := by decide +kernel

theorem witness_LoadAborts : (1 : Byte).toNat = BankId.b.num ∧ 1 < (2 : Byte).toNat ∧
    (busy.tables.bank .b).state = .loading ∧ (busy.tables.bank .a).state ≠ .loading := by
  decide +kernel

theorem witness_Commits : (pinnedA.tables.bank .a).state = .ready ∧ pinnedA.takesRequests ∧
    (busy.tables.bank .b).state ≠ .ready ∧ (0 : Byte).toNat = BankId.a.num := by decide +kernel

/-- Every badge from 100 to 163 listed. -/
def fullBadges : State := { busy with tables := { busy.tables with
  badges := (List.range 64).map fun n => (n + 100, Level.one) } }

theorem witness_BadgeSets : (0 : Byte).toNat = 0 ∧ 2 < (3 : Byte).toNat ∧
    ((1 : Byte).toNat = Level.one.code ∧ (2 : Byte).toNat = Level.two.code) ∧
    (fullBadges.tables.level 99 = none ∧ 64 ≤ fullBadges.tables.badges.length ∧
      fullBadges.takesRequests) ∧
    (busy.tables.level 9 = none ∧ busy.tables.badges.length < 64) ∧
    busy.tables.level 2020 = some .two ∧ busy.tables.level 4411 = some .one := by decide +kernel

theorem witness_BadgeClears : 2 ≤ (2 : Byte).toNat ∧ busy.tables.level 9 = none ∧
    (busy.tables.level 4411).isSome = true := by decide +kernel

/-- Console 0 alone present, FREE, and a WAITING record of lane 2 in slot 0 with a declined set. -/
def manned (declined : ConsoleSet) : State :=
  (withRecord busy 0 { recordOf 2 .weight .waiting with declined := declined }).onDesk (fun d =>
    { d.modConsole 0 (fun x => { x with state := .free }) with freeOrder := [0] })

theorem witness_ZoneSets : 3 < (4 : Byte).toNat ∧ (3 : Byte).toNat = (3 : ConsoleIx).1 ∧
    staffed.floor.desk.queue.map (·.1) = [5, 2, 0, 1, 4, 6, 3] ∧
    (let offered (d : ConsoleSet) (zone : LaneSet) : Option RecState :=
       (((manned d).floor.desk.dispatch (Vector.replicate 4 zone)).recAt 0).map (·.state)
     offered 0 4 = some (.offered 0 false) ∧ offered 0 0 = some (.offered 0 false) ∧
      offered 1 4 = some .waiting) := by decide +kernel

theorem witness_LaneOpens : 23 < (24 : Byte).toNat ∧ (23 : Byte).toNat = (23 : LaneIx).1 ∧
    ((up.floor.lane 23).state = .closed ∧ (up.tables.bank .a).state ≠ .current ∧
      (up.tables.bank .b).state ≠ .current) ∧
    ((busy.floor.lane 23).state = .closed ∧ (busy.tables.bank .a).state = .current) ∧
    (busy.floor.lane 4).state = .closingScan ∧ (busy.floor.lane 5).state = .closingPay ∧
    (busy.floor.lane 1).state = .ready ∧ (busy.floor.lane 2).state = .scanning ∧
    (busy.floor.lane 3).state = .paying := by decide +kernel

theorem witness_LaneCloses : 2 ≤ (2 : Byte).toNat ∧ (busy.floor.lane 1).state = .ready ∧
    (busy.floor.lane 2).state = .scanning ∧ (busy.floor.lane 3).state = .paying ∧
    (busy.floor.lane 0).state = .closed ∧ (busy.floor.lane 4).state.isClosing = true ∧
    ((staffed.onDesk id).floor.desk.recAt 2).map (·.lane) = some 1 := by decide +kernel

theorem witness_LaneClosesByForce : (busy.floor.lane 2).legal ∧ (busy.floor.lane 2).state ≠ .closed ∧
    (busy.floor.lane 0).legal ∧ (1 : LaneIx) ≠ 2 := by
  unfold Lane.legal; decide +kernel

/-- Lane 3, PAYING, with PAY_FAIL raised, whose record console 0 is offered. -/
def failing : State :=
  withLane staffed 3 (fun x => x.setEntry .payFail (some { stamp := 5, queued := true, detail := none }))

/-- The record of an ended reason is a lane-ended one, however the lane ends (R8, R9, R11, R77). -/
theorem test_recordsEndWithTheLane :
    let ended (f : Floor) : Option Record × ConsoleState × Cause :=
      (f.desk.recAt 1, (f.desk.console 0).state, (f.desk.console 0).cause)
    let f := failing.floor
    [f.enterClosed 3, (f.endTxn 3).1, f.forceClose failing.params 3,
      f.resetLane failing.env 3].map ended = List.replicate 4 (none, .free, .laneEnded) := by
  decide +kernel

/-- A need for presence that a REFER added goes as the lane closes; a lane reset ends the record (R8, R9). -/
theorem test_referredRecordOfAClosedLane :
    let f := (staffed.onDesk (fun d => d.modRec 2 (fun r => { r with needsPresence := true }))).floor
    ((f.forceClose staffed.params 1).desk.recAt 2).map (·.needsPresence) = some false ∧
      (f.resetLane staffed.env 1).desk.recAt 2 = none := by decide +kernel

theorem witness_LaneResets : (busy.floor.lane 3).legal ∧ (busy.floor.lane 6).legal ∧
    (23 : Byte).toNat = (23 : LaneIx).1 := by
  unfold Lane.legal; decide +kernel

/-- Line 2 in a state, with quiet pending or not, and a turn or none. -/
def lineAs (st : LineState) (quiet : Bool) (turn : Option Turn) : State :=
  busy.modLine 2 (fun x => { x with state := st, quietPending := quiet, turn := turn })

theorem witness_LineQuietsAndWakes : 3 < (4 : Byte).toNat ∧ (2 : Byte).toNat = (2 : LineIx).1 ∧
    ((lineAs .waking false none).line 2).state = .waking ∧
    ((lineAs .quiet false none).line 2).state = .quiet ∧
    ((lineAs .active true none).line 2).quietPending = true ∧
    ((busy.line 0).state = .active ∧ (busy.line 0).quietPending = false ∧
      ¬∀ d, (busy.floor.lane (laneOf 0 d)).state = .closed) ∧
    (((lineAs .active false (some (turnIn .window))).line 2).turn.isSome = true ∧
      ∀ d, ((lineAs .active false (some (turnIn .window))).floor.lane (laneOf 2 d)).state = .closed) ∧
    ((lineAs .active false none).line 2).turn = none := by decide +kernel

theorem witness_ConsoleJoinsAndLeaves : 3 < (4 : Byte).toNat ∧ (3 : Byte).toNat = (3 : ConsoleIx).1 ∧
    (busy.floor.desk.console 3).state = .absent ∧ (staffed.floor.desk.console 3).state ≠ .absent ∧
    (staffed.floor.desk.console 1).state = .busy 2 ∧
    (let checked (d : ConsoleSet) : Option ConsoleSet × Bool :=
       let t := (manned d).floor.desk.checkWaiting busy.params busy.tables.zones
       ((t.recAt 0).map (·.declined), t.dispatchDue)
     checked 1 = (some 0, true) ∧ checked 2 = (some 2, false) ∧
      (busy.floor.desk.eligible busy.tables.zones 2 = [] ∧ busy.floor.desk.recAt 0 = none)) := by
  decide +kernel

theorem witness_RecordRequestsChecked : (0 : Byte) ≠ 1 ∧ 2 ≤ (2 : Byte).toNat ∧
    3 < (4 : Byte).toNat ∧ 47 < (48 : Byte).toNat ∧ 15 < (16 : Byte).toNat ∧
    ((3 : Byte).toNat ≤ 3 ∧ (47 : Byte).toNat = (47 : SlotIx).1 ∧ (15 : Byte).toNat ≤ 15 ∧
      staffed.floor.desk.recAt 47 = none) ∧
    staffed.floor.desk.slots[(0 : SlotIx)].issue.toNat ≠ (15 : Byte).toNat := by decide +kernel

theorem witness_Claims : staffed.takesRequests ∧
    staffed.floor.desk.slots[(0 : SlotIx)].issue.toNat = (3 : Byte).toNat ∧
    (staffed.floor.desk.recAt 0).map (·.state) = some .waiting ∧
    (staffed.floor.desk.recAt 1).map (·.state) = some (.offered 0 true) ∧
    (staffed.floor.desk.recAt 2).map (·.state) = some (.claimed 1) ∧
    (staffed.floor.desk.recAt 3).map (·.state) = some (.attending (some 2)) ∧
    (staffed.floor.desk.recAt 4).map (·.state) = some (.offered 3 false) ∧
    (busy.floor.desk.console 0).state = .absent ∧ (staffed.floor.desk.console 1).state = .busy 2 ∧
    ((after (.consoleOn 1 2) busy).floor.desk.console 2).state = .free ∧
    (staffed.floor.desk.console 3).state = .offered 4 ∧
    (staffed.floor.desk.console 3).saved = some (false, .noneYet) := by decide +kernel

theorem witness_Declines : staffed.takesRequests ∧
    staffed.floor.desk.slots[(1 : SlotIx)].issue.toNat = (3 : Byte).toNat ∧
    (staffed.floor.desk.recAt 1).map (·.state) = some (.offered 0 true) ∧
    (staffed.floor.desk.recAt 4).map (·.state) = some (.offered 3 false) ∧
    (staffed.floor.desk.recAt 0).map (·.state) = some .waiting ∧
    (let risen (s : State) : Option (ConsoleSet × Fin 4 × Timer) :=
       ((s.floor.desk.checkExhausted s.params s.tables.zones true 0).recAt 0).map
         (fun r => (r.declined, r.current, r.escal))
     risen (manned 1) = some (0, 2, some 300) ∧ risen (manned 0) = some (0, 1, none) ∧
      risen ((manned 1).onDesk (fun d => d.modRec 0 (fun r => { r with current := 3 }))) =
        some (0, 3, none)) := by decide +kernel

theorem witness_Releases : staffed.takesRequests ∧
    staffed.floor.desk.slots[(2 : SlotIx)].issue.toNat = (3 : Byte).toNat ∧
    (staffed.floor.desk.recAt 2).map (·.state) = some (.claimed 1) ∧
    (staffed.floor.desk.recAt 3).map (·.state) = some (.attending (some 2)) := by decide +kernel

theorem witness_Resolves : staffed.takesRequests ∧
    (staffed.floor.desk.recAt 2).map (fun r => (r.state, r.reason, r.needsPresence)) =
      some (.claimed 1, .help, false) ∧
    (staffed.floor.desk.recAt 5).map (fun r => (r.state, r.reason)) = some (.claimed 1, .link) ∧
    (staffed.floor.desk.recAt 6).map (fun r => (r.state, r.needsPresence)) =
      some (.claimed 1, true) ∧
    (staffed.floor.desk.recAt 0).map (·.state) = some .waiting ∧
    (staffed.floor.lane 1).has .help = true ∧ (staffed.floor.lane 6).has .help = false := by
  decide +kernel

theorem witness_ReadsAnswer : 23 < (24 : Byte).toNat ∧ 4 < (5 : Byte).toNat ∧
    ((23 : Byte).toNat = (23 : LaneIx).1 ∧ (4 : Byte).toNat ≤ 4) ∧ 2 ≤ (2 : Byte).toNat ∧
    47 < (48 : Byte).toNat ∧ 191 < (192 : Byte).toNat ∧ (47 : Byte).toNat ≤ 47 ∧
    (191 : Byte).toNat ≤ 191 ∧ (3 : Byte).toNat = (3 : LineIx).1 ∧
    (List.replicate 6 anEvent.frame).length ≤ 6 ∧ [(3 : ConsoleIx), 1, 0, 2].length ≤ 4 ∧
    ((staffed.floor.lane 1).entry .help).isSome = true := by decide +kernel

theorem witness_CountersReadAndCleared : 28 < (29 : Byte).toNat ∧ 1 < (2 : Byte).toNat ∧
    (23 : Byte).toNat = (23 : LaneIx).1 ∧ (27 : Byte).toNat = 24 + (3 : LineIx).1 ∧
    (28 : Byte).toNat = 28 := by decide

theorem witness_ParamsSet : (0 : Byte).toNat = 0 ∧ 22 < (23 : Byte).toNat ∧
    500 < (501 : BitVec 24).toNat ∧ (9 : BitVec 24).toNat < 10 ∧
    (1 ≤ (1 : Byte).toNat ∧ (500 : BitVec 24).toNat ≤ 500) ∧
    (1 ≤ (22 : Byte).toNat ∧ (22 : Byte).toNat ≤ 22 ∧ (0xFFFFFF : BitVec 24).toNat ≤ 16777215) ∧
    outcome (.setParam 1 22 0xFFFFFF) busy = some .done ∧
    outcome (.setParam 1 21 3) busy = some .done ∧
    outcome (.setParam 1 4 9) busy = some .badArgument := by decide +kernel

theorem witness_SettingsTaken : 23 < (24 : Byte).toNat ∧ 1 < (2 : Byte).toNat ∧ 2 < (3 : Byte).toNat ∧
    ((23 : Byte).toNat = (23 : LaneIx).1 ∧ (1 : Byte).toNat = true.toNat ∧
      (2 : Byte).toNat = Edge.both.code) := by decide

/-- Lane 2 with a TOTAL in its deferred list, held back by WEIGHT or not. -/
def deferring (held : Bool) : State :=
  withLane busy 2 (fun x =>
    { x with deferred := [{ buf := 62, lane := 2, seq := 1, body := .total 250, gap := false }] }.setEntry
      .weight (if held then some { stamp := 0, queued := false, detail := none } else none))

theorem witness_TransmissionsComplete :
    (sendingOf busy (.snapshot 3)).sending = some (.snapshot 3) ∧
    (sendingOf busy .partNotice).sending = some .partNotice ∧
    (sendingOf busy (.lineNotice 23)).sending = some (.lineNotice 23) ∧
    (sendingOf busy (.laneNotice 0)).sending = some (.laneNotice 0) ∧
    ((sendingOf crowded .response).sending = some .response ∧
      crowded.mgmt.resetPending = false ∧ crowded.held = none) ∧
    ((sendingOf busy (.laneEvent 2)).sending = some (.laneEvent 2) ∧
      busy.floor.chans[(2 : ChanIx)].queue = anEvent :: []) ∧
    (busy.sending = none ∧ busy.held = none) ∧
    (busy.floor.lane 2).deferred = [] ∧
    (((deferring true).floor.lane 2).forbids .total = true ∧
      (((deferring true).floor.pass busy.env 2).lane 2).deferred.length = 1 ∧
      ((deferring true).floor.sweep busy.env).releasePtr = 0) ∧
    (((deferring false).floor.lane 2).forbids .total = false ∧
      (deferring false).floor.room busy.env .total = true ∧
      (((deferring false).floor.pass busy.env 2).lane 2).deferred = [] ∧
      ((deferring false).floor.sweep busy.env).releasePtr = 3) := by decide +kernel

/-- Nothing flagged, channels 2 and 3 OPEN with credit and an event each, channel 2 at a pass count. -/
def contended (pass : Nat) : State :=
  let s := withChan busy 1 (fun c =>
    { c with state := .opened, credit := 1, pass := pass, queue := [anEvent] })
  withChan s 2 (fun c => { c with credit := 63 })

theorem witness_ArbiterChooses :
    (State.reset.linkUp = false ∧ (sendingOf busy .response).link.tx.isSome = true) ∧
    (crowded.linkUp = true ∧ crowded.link.tx = none ∧ crowded.held = none ∧
      crowded.mgmt.slots ≠ []) ∧
    (let s := busy.onDesk (fun d => d.modConsole 3 (fun x => { x with pending := true }))
     s.mgmt.slots = [] ∧ (s.floor.desk.console 3).pending = true) ∧
    (let s := staffed.onDesk (fun d => d.modConsole 3 (fun x => { x with pending := true }))
     (s.floor.desk.recAt 4).map (·.state) = some (.offered 3 false) ∧
      (s.arbiter.floor.desk.recAt 4).map (fun r => (r.state, r.offer)) =
        some (.offered 3 true, some 100) ∧ (s.arbiter.floor.desk.console 3).saved = none) ∧
    (let s := (busy.onFloor (fun f => f.flag 23)).onFloor (fun f => f.flag 5)
     s.arbiter.sending = some (.laneNotice 5) ∧
      { s with notices := { s.notices with lanePtr := 5 } : State }.arbiter.sending =
        some (.laneNotice 23)) ∧
    (let s : State := { busy with notices := { busy.notices with part := true } }
     s.notices.part = true ∧ s.params.mask.getLsbD 0 = true ∧
      s.arbiter.sending = some .partNotice) ∧
    (let s : State := { busy with notices := { busy.notices with line := laneBit 23 } }
     s.notices.line ≠ 0 ∧ s.params.mask.getLsbD 1 = true ∧
      s.arbiter.sending = some (.lineNotice 23)) ∧
    (let s := busy.onFloor (fun f => f.flag 0)
     s.floor.laneFlags ≠ 0 ∧ s.params.mask.getLsbD 2 = true ∧
      s.arbiter.sending = some (.laneNotice 0)) ∧
    (contended 7).arbiter.sending = some (.laneEvent 2) ∧
    (contended 8).arbiter.sending = some (.laneEvent 1) ∧
    (up.linkUp = true ∧ up.link.tx = none ∧ up.arbiter = up) := by decide +kernel

theorem witness_LaneTimersExpire : busy.held = none ∧
    ((busy.floor.lane 2).bagSettle = some 0 ∧ (busy.floor.lane 2).totals.bag = none) ∧
    ((busy.floor.lane 3).bagSettle = some 0 ∧ (busy.floor.lane 3).totals.bag = some 560 ∧
      busy.params.baseTolerance + (busy.floor.lane 3).totals.tolerance <
        (((560 : Nat) : Int) - (busy.floor.lane 3).totals.expected).natAbs) ∧
    ((busy.floor.lane 4).bagSettle = some 0 ∧ (busy.floor.lane 4).totals.bag = some 490 ∧
      (((490 : Nat) : Int) - (busy.floor.lane 4).totals.expected).natAbs ≤
        busy.params.baseTolerance + (busy.floor.lane 4).totals.tolerance) ∧
    (busy.floor.lane 3).inactivity = some 0 ∧ (busy.floor.lane 6).presence = some 0 ∧
    (busy.floor.lane 6).refusalTimer = some 0 ∧
    ((busy.floor.lane 0).bagSettle ≠ some 0 ∧ (busy.floor.lane 0).inactivity ≠ some 0 ∧
      (busy.floor.lane 0).presence ≠ some 0 ∧ (busy.floor.lane 0).refusalTimer ≠ some 0) := by
  decide +kernel

theorem witness_RecordTimersExpire : staffed.held = none ∧
    (staffed.floor.desk.recAt 0).map (fun r => (r.escal, r.current)) = some (some 0, 1) ∧
    (staffed.floor.desk.recAt 5).map (fun r => (r.escal, r.current)) = some (some 0, 3) ∧
    (staffed.floor.desk.recAt 1).map (fun r => (r.offer, r.state)) =
      some (some 0, .offered 0 true) ∧
    (staffed.floor.desk.recAt 2).map (fun r => (r.claim, r.state)) = some (some 0, .claimed 1) ∧
    staffed.floor.desk.recAt 47 = none := by decide +kernel

/-- Line 2 with its first `n` drops OFFLINE, its record changed. -/
def offline (n : Nat) (g : Line → Line) : State :=
  (busy.onFloor (fun f => (allDrops.take n).foldl
    (fun f d => f.modLane (laneOf 2 d) (fun x => { x with drop := { x.drop with link := .offline } }))
    f)).modLine 2 g

theorem witness_nextTurn :
    (let t := (lineAs .active true none).nextTurn 2
     (t.line 2).state = .quiet) ∧
    (let t := (offline 1 (fun x => { x with attention := .due })).nextTurn 2
     (t.line 2).turn.map (·.drop) = some 1 ∧ (t.line 2).attention = .active 2) ∧
    (let t := (offline 0 (fun x => { x with attention := .active 5 })).nextTurn 2
     (t.line 2).turn.map (·.drop) = some 5 ∧ (t.line 2).attention = .inactive) ∧
    (let t := (offline 6 (fun x => { x with attention := .due, idleWait := true })).nextTurn 2
     (t.line 2).turn = none ∧ (t.line 2).attention = .inactive) ∧
    (let t := (offline 6 (fun x => { x with round := 1 })).rotate 2 rotationSpan
     (t.line 2).idleWait = true ∧ (t.line 2).round = 2) ∧
    (let t := (offline 6 (fun x => { x with round := 7, pos := 5, roundServed := true })).rotate 2
       rotationSpan
     (t.line 2).turn.map (·.drop) = some 0 ∧ (t.line 2).round = 0) ∧
    (let t := (offline 5 (fun x => { x with round := 1 })).rotate 2 rotationSpan
     (t.line 2).turn.map (·.drop) = some 5 ∧ (t.line 2).pos = 0) := by decide +kernel

theorem witness_TurnPhases : (polling .sending).held = none ∧
    ((polling .sending).line 0).turn.map (·.phase) = some .sending ∧
    ((polling .window).line 0).turn.map (·.phase) = some .window ∧
    ((polling .receiving).line 0).turn.map (·.phase) = some .receiving ∧
    (busy.line 0).turn = none := by decide +kernel

theorem witness_GoodAnswers : (polling .receiving).held = none ∧
    ((polling .receiving).line 0).turn = some (turnIn .receiving) ∧
    (receiveAnswer 1 []).1 = none ∧
    ((receiveAnswer 1 (nilAnswer 1 5)).1.map (·.frame) = some none) ∧
    ((receiveAnswer 1 (frameAnswer 1 5 2 5 [])).1.map (·.frame.isSome) = some true) ∧
    ((polling .receiving).line 0).slot = some 0 ∧
    (((polling .receiving).modLine 0 (fun x => { x with slot := none })).line 0).slot = none := by
  decide +kernel

theorem witness_LineEvents : busy.held = none ∧
    ((lineAs .quiet false none).line 2).state = .quiet ∧
    ((lineAs .waking false none).line 2).state = .waking ∧
    ((busy.line 2).state = .active ∧ (busy.line 2).turn = none) ∧
    (((polling .sending).line 0).state = .active ∧
      ((polling .sending).line 0).turn = some (turnIn .sending)) ∧
    ((polling .window).line 0).turn = some (turnIn .window) ∧
    (rxFalseStart (rxClean (lineChar 9 false)) = false ∧ rxFalseStart (rxClean 1) = true) ∧
    ((busy.modLine 2 (fun x => { x with idleWait := true })).line 2).idleWait = true ∧
    (busy.line 2).idleWait = false ∧ (waking.line 3).settle = some 0 ∧
    (busy.line 3).settle ≠ some 0 ∧
    (let s := withLane (withLane waking 18 (fun x => { x with drop := { x.drop with link := .silent } }))
       23 (fun x => { x with drop := { x.drop with link := .offline } })
     let t := s.prepareLine 3
     hasLane t.notices.line 18 = true ∧ (t.floor.lane 18).drop.link = .online ∧
      hasLane t.notices.line 23 = false ∧ (t.floor.lane 23).drop.link = .offline ∧
      lineOf 17 = 2) := by decide +kernel

/-- A state with a free list. -/
def poolOf (bs : List BufId) : State := busy.onFloor (fun f => { f with free := bs })

theorem witness_TurnBegins : ((polling .window).line 0).slot = some 0 ∧
    ((poolOf [5, 6]).floor.free = 5 :: [6] ∧ ((poolOf [5, 6]).line 0).slot = none) ∧
    (poolOf [5]).floor.free = 5 :: [] ∧ (poolOf []).floor.free = [] := by decide +kernel

theorem witness_DropJudged :
    (({} : DropLink).link = .online ∧ ({} : DropLink).trouble = false) ∧
    (let x : DropLink := { link := .silent, misses := 1 }
     x.misses + 1 < 3 ∧ x.afterTurn .miss = { x with misses := 2 }) ∧
    (let x : DropLink := { link := .silent, misses := 2 }
     3 ≤ x.misses + 1 ∧ (x.afterTurn .miss).link = .offline ∧
      (x.afterTurn .miss).trouble = true) ∧
    (let x : DropLink := { link := .offline, misses := 3, trouble := true, quality := 8 }
     x.link ≠ .online ∧ (x.afterTurn (.good false)).trouble = false ∧
      (x.afterTurn (.good true)).trouble = true) ∧
    (({ quality := 8 } : DropLink).afterTurn .damaged).trouble = true ∧
    (({ quality := 7 } : DropLink).afterTurn .damaged).trouble = false := by decide +kernel

/-- Channel 3 with a full queue. -/
def fullChannel : State := withChan busy 2 (fun c => { c with queue := List.replicate 24 anEvent })

theorem witness_FrameJudged :
    let x : Lane := { state := .ready, drop := { lastSeq := some 7 } }
    (x.drop.lastSeq = some 7 ∧ x.drop.lastSeq ≠ some 0 ∧ parseFrame 5 [1] = none ∧
      parseFrame 5 [] = some .help) ∧
    (x.state ≠ .closed ∧ (LaneFrame.total 9).kind.deferrable = true ∧
      0 < ((1 : Seq) - (7 + 1)).toNat ∧ x.deferred.length < 6) ∧
    (List.replicate 6 anEvent.frame).length = 6 ∧
    (fullChannel.floor.room busy.env .help = false ∧ busy.floor.room busy.env .help = true) := by
  decide +kernel

theorem witness_processed :
    let effect (l : LaneIx) (b : LaneFrame) : Proc := ({ floor := busy.floor } : Proc).effect busy.env l b
    ((effect 1 .help).verdict = .applied ∧ (effect 0 (.paid 9)).verdict = .reported ∧
      (effect 1 (.remove 7)).verdict = .dropped ∧ (effect 2 (.override .ack)).verdict = .unheard) ∧
    (busy.env.map[FrameKind.bag.ix] = none ∧
      (busy.env.map[FrameKind.scan.ix] = some 0 ∧ busy.floor.chans[(0 : ChanIx)].state = .disabled) ∧
      (busy.env.map[FrameKind.help.ix] = some 2 ∧
        busy.floor.chans[(2 : ChanIx)].state ≠ .disabled)) ∧
    (let f := busy.floor.raise busy.env 3 .idle none none
     (f.lane 3).has .idle = true ∧
      (f.process busy.env { buf := 62, lane := 3, seq := 0, body := .help, gap := false } false).2 =
        true) := by decide +kernel

theorem witness_ItemAddedThenVoided :
    (let x : Lane := { state := .scanning, totals := { tolerance := 1990 } }
     x.totals.tolerance ≤ ({} : Params).toleranceCap ∧ x.stack.length < 8) ∧
    (lookupItem {} none 7 9).exempt = false ∧ (lookupItem {} none 7 9).age = false ∧
    ({} : Params).toleranceCap < 2001 ∧
    ((lookupItem busy.tables (some .a) 7 112).tol = 15 ∧
      (lookupItem busy.tables (some .a) 7 112).unknown = false ∧
      (lookupItem busy.tables (some .a) 7 113).unknown = true) ∧
    (limitOf { itemCount := 998 } 9999999 9999999 = none ∧
      limitOf { itemCount := 999 } 0 0 = some .itemCount ∧
      limitOf { value := 9999999 } 1 0 = some .value ∧
      limitOf { expected := 9999999 } 0 1 = some .weight) := by
  decide +kernel

theorem witness_FrameEffects :
    (busy.floor.lane 0).state = .closed ∧ (busy.floor.lane 1).state = .ready ∧
    ((busy.floor.lane 2).state.isScanning = true ∧ (busy.floor.lane 2).totals.value = 250 ∧
      (250 : BitVec 24).toNat = 250 ∧ (251 : BitVec 24).toNat ≠ 250) ∧
    ((busy.floor.lane 3).state.isPaying = true ∧ (busy.floor.lane 3).state.inTxn = true) ∧
    (busy.floor.lane 1).state.inTxn = false ∧ busy.env.tables.level 9 = none ∧
    (busy.floor.lane 2).session = none ∧
    (busy.env.tables.current = some .a ∧ up.tables.current = none) ∧
    (let scan (s : State) (l : LaneIx) : Lane :=
       (({ floor := s.floor } : Proc).effect s.env l (.scan 7 112 2 100 50)).floor.lane l
     let full := withLane busy 2 (fun x => { x with totals := { x.totals with itemCount := 999 } })
     ((scan busy 1).state = .scanning ∧ (scan busy 1).txn = 1 ∧ (scan busy 1).pinned = some .a ∧
       (scan busy 1).totals.value = 200) ∧
     ((scan busy 4).totals.itemCount = 2 ∧ (scan full 2).help = { limit := true })) ∧
    (((busy.floor.endTxn 5).1.lane 5).state = .closed ∧
      ((deferring true).floor.endTxn 2).2 = reasonBit .weight ∧
      (((deferring true).floor.endTxn 2).1.lane 2).state = .ready) := by decide +kernel

theorem witness_ReadingsBadgesAndOverrides :
    let x := busy.floor.lane 2
    let y := busy.floor.lane 4
    (x.entry .weight = none ∧ x.state.inTxn = true ∧ x.bagSettle.isSome = true) ∧
    ((((520 : Nat) : Int) - x.totals.expected).natAbs ≤
        busy.params.baseTolerance + x.totals.tolerance ∧
      ¬(((521 : Nat) : Int) - x.totals.expected).natAbs ≤
        busy.params.baseTolerance + x.totals.tolerance) ∧
    { y with bagSettle := none : Lane }.bagSettle = none ∧
    (busy.env.tables.level 2020 = some .two ∧ busy.env.tables.level 4411 = some .one) ∧
    (busy.floor.lane 0).session = none ∧
    ((busy.floor.lane 6).session = some { badge := 4411, level := .one, opened := 0 } ∧
      (busy.floor.lane 6).state.inTxn = false ∧ (busy.floor.lane 6).stack = [] ∧
      (busy.floor.lane 6).has .watch = false) ∧
    (staffed.floor.lane 1).has .help = true ∧
    (let s := withRecord staffed 7 (recordOf 6 .lostFrame (.attending none))
     let t := s.floor.desk.sessionClosed busy.params 6
     (t.recAt 3).map (·.state) = some (.claimed 2) ∧
      (t.recAt 7).map (fun r => (r.state, r.escal)) = some (.waiting, some 450) ∧
      t.dispatchDue = true) ∧
    (let opened (l : LaneIx) (k : SlotIx) : Option RecState :=
       ((staffed.floor.desk.sessionOpened l).recAt k).map (·.state)
     opened 2 0 = some (.attending none) ∧ opened 3 1 = some (.attending none) ∧
      opened 4 4 = some (.attending none) ∧ opened 1 2 = some (.attending (some 1)) ∧
      ((staffed.floor.desk.sessionOpened 4).console 3).pending = false ∧
      ((staffed.floor.desk.sessionOpened 3).console 0).cause = .withdrawn) ∧
    (let y : Lane := { (busy.floor.lane 2) with
       session := some { badge := 2020, level := .two, opened := 0 }
       stack := [{ article := 7, group := 112, quantity := 1, lineValue := 250, weight := 500
                   tolerance := 0, age := true, source := .scan }] }
     y.state.inTxn = true ∧ y.session.map (·.level) = some .two ∧ y.stack.length = 1 ∧
      y.totals.ageCount ≤ 1) := by decide +kernel

theorem witness_ReasonsRaisedAndTakenOut : staffed.floor.desk.freedSlots = 0 ∧
    ((staffed.floor.lane 0).state = .closed ∧ Reason.age ≠ .help ∧ Reason.age ≠ .link) ∧
    ((staffed.floor.lane 1).state ≠ .closed ∧
      ((staffed.floor.lane 1).entry .help).map (·.queued) = some true ∧
      staffed.floor.desk.find 1 .help = some 2) ∧
    ((staffed.floor.lane 1).entry .age = none ∧ staffed.floor.desk.freeSlot = some 7) ∧
    ({ slots := Vector.replicate 48 { rec? := some (recordOf 0 .help .waiting) } } : Desk).freeSlot =
      none ∧
    ((staffed.onDesk (fun d => { d with freedSlots := 1 })).floor.insertions busy.params).desk.freedSlots =
      0 ∧
    ((staffed.floor.raise busy.env 1 .help none (some .button)).lane 1).help =
      { screen := true, button := true } ∧
    (let ended (k : SlotIx) (c : ConsoleIx) : ConsoleState × Bool × Cause :=
       let x := (staffed.floor.desk.endRecord k .resolved).console c
       (x.state, x.pending, x.cause)
     ended 1 0 = (.free, true, .resolved) ∧ ended 2 1 = (.free, true, .resolved) ∧
      ended 3 2 = (.free, true, .resolved) ∧ ended 4 3 = (.free, false, .noneYet) ∧
      ended 0 3 = (.offered 4, false, .noneYet)) := by decide +kernel

theorem witness_DirectiveWordDerived :
    let f := (((staffed.floor.touch 0).touch 1).touch 6)
    (hasLane f.touched 23 = false ∧ hasLane f.touched 1 = true) ∧
    ((f.lane 0).state = .closed ∧ (f.lane 1).state ≠ .closed ∧ (f.lane 1).session = none ∧
      (f.lane 1).refusal = none ∧ (f.lane 1).has .help = true) ∧
    ((f.deriveTouched.lane 1).word.message = .callNoted ∧
      (f.lane 6).refusal = some .levelTooLow ∧ (f.lane 6).session.isSome = true) ∧
    ((f.lane 1).echo = some 0 ∧ (f.lane 1).word.gen = 0 ∧ (f.deriveTouched.lane 1).word.gen = 1) := by
  decide +kernel

theorem witness_EndOfEventFrame : (sendingOf busy .response).link.tx ≠ none ∧
    State.reset.linkUp = false ∧ (3 : ConsoleIx) ∉ staffed.floor.desk.freeOrder ∧
    (hasLane busy.floor.touched 23 = false ∧ busy.floor.desk.freedSlots = 0 ∧
      busy.floor.desk.recAt 47 = none) ∧
    ((staffed.floor.desk.recAt 0).map (·.state) = some .waiting ∧
      (staffed.floor.desk.recAt 4).map (·.state) = some (.offered 3 false) ∧
      (staffed.floor.desk.recAt 1).map (·.state) = some (.offered 0 true)) ∧
    (let f := ((deferring true).onDesk (fun d => { d with freedSlots := 1 })).floor
     (f.unqueued busy.params).map (fun u => (u.lane, u.reason)) = [(2, .weight)] ∧
      f.desk.freedSlots = 0 + 1 ∧ f.desk.freeSlot = some 0 ∧
      ((f.insertions busy.params).desk.recAt 0).map (fun r => (r.lane, r.reason)) =
        some (2, .weight)) ∧
    (let s := (withConsole staffed 3 .free).onDesk (fun d =>
       { d with freeOrder := [3], dispatchDue := true })
     (s.floor.insertions s.params).desk.dispatchDue = true ∧
      (s.settle.floor.desk.recAt 0).map (·.state) = some (.offered 3 false)) := by decide +kernel

/-! A state other than reset that the invariants hold in, with a step to take. -/

theorem witness_TablesInvariantKept : busy.tables.legal ∧
    ∃ t, step { busy with pending := [.tick true] } = .next t := by
  refine ⟨⟨by decide +kernel, by decide +kernel, fun bk => ?_, by decide +kernel,
    by decide +kernel⟩, _, rfl⟩
  cases bk <;> decide +kernel

/-- The OPEN channel with its queue full. -/
def fullQueue : State := withChan busy 2 (fun c => { c with queue := List.replicate 24 anEvent })

theorem witness_ChannelInvariantKept : (∀ c : ChanIx, fullQueue.floor.chans[c].legal) ∧
    (fullQueue.floor.chans[(2 : ChanIx)]).queue.length = 24 ∧
    ∃ t, step { fullQueue with pending := [.credit 1 2 63] } = .next t := by
  refine ⟨?_, ?_, _, rfl⟩ <;> try unfold Channel.legal
  all_goals decide +kernel

theorem witness_LaneInvariantKept : (∀ l : LaneIx, (busy.floor.lane l).legal) ∧
    ∃ t, step { busy with pending := [.laneReset 1 3] } = .next t := by
  refine ⟨?_, _, rfl⟩
  unfold Lane.legal
  decide +kernel

theorem witness_BuffersStayInPlace : busy.buffersInPlace ∧ (polling .receiving).buffersInPlace ∧
    ∃ t, step { busy with pending := [.laneEventComplete] } = .next t := by
  refine ⟨?_, ?_, _, rfl⟩ <;> unfold State.buffersInPlace <;> decide +kernel

theorem witness_EncodingsReadBack :
    ((Instr.setParam 9 22 7).wellFormed = true ∧
      (Instr.setParam 9 22 7).wire = some { kind := 29, tag := 9, content := [22, 0, 0, 7] }) ∧
    ((31 : BitVec 5) ≠ 0 ∧ (List.replicate 40 (0 : Byte)).length ≤ 40) ∧
    (LaneFrame.scan 0xFFFFFFFFFFFF 1023 99 999999 99999).inRange = true ∧
    (LaneFrame.bag 99999 true).inRange = true ∧
    parseFrame 3 (LaneFrame.bag 99999 true).content = some (.bag 99999 true) ∧
    (let first := rxClean (lineChar 9 false)
     let later := rxClean (lineChar 9 true)
     rxFalseStart first = false ∧ rxIntact (decide (0 = 0)) first = false ∧
      3 < (frameAnswer 5 31 7 0 []).length ∧ rxFalseStart later = false ∧
      rxIntact (decide (3 = 0)) later = false) := by decide +kernel

end Sys2Proof.Tests
end

section
/-! PROOFS. The channel requests: CREDIT, MAP SET and CHANNEL SET (R160 to R162). One equation for each case of
what a request's execution gives; the statements follow by `request_answers`. -/

namespace Sys2Proof.Machine

theorem State.env_hunt (s : State) : s.hunt.env = s.env := rfl

theorem State.sending_hunt (s : State) : s.hunt.sending = s.sending := rfl

/-! ## CREDIT (R161) -/

theorem State.runCredit_badArgument (s : State) {channel count : Byte}
    (h : channel.toNat = 0 ∨ 3 < channel.toNat ∨ 63 < count.toNat) :
    s.runCredit channel count = s.refuse .badArgument := by
  unfold State.runCredit
  split
  · rfl
  · rename_i c hc
    by_cases hn : Config.maxCredit < count.toNat
    · exact if_pos hn
    · have hbad : chanArg channel = none := chanArg_bad (by unfold Config.maxCredit at hn; omega)
      simp [hbad] at hc

/-- CREDIT of a channel 1 to 3 by a count up to 63 is judged by the channel's state. -/
theorem State.runCredit_inRange (s : State) {channel count : Byte} {c : ChanIx}
    (hc : channel.toNat = c.1 + 1) (hn : count.toNat ≤ 63) :
    s.runCredit channel count =
      if s.floor.chans[c].state = .disabled then s.refuse .badState
      else
        let opens := decide (count.toNat ≠ 0) && s.floor.chans[c].state == .pending
        let t := s.onFloor (fun f => f.modChan c (Channel.grant count.toNat))
        (if opens then t.flagPart else t).done := by
  have hn' : ¬Config.maxCredit < count.toNat := Nat.not_lt.2 hn
  simp only [State.runCredit, chanArg_num hc, if_neg hn']

theorem Channel.grant_pos {n : Nat} (h : 1 ≤ n) :
    Channel.grant n = fun ch => { ch with credit := min (ch.credit + n) 63, state := .opened } := by
  funext ch
  exact if_neg (by omega)

/-- Flagging PART where a condition holds, as one update of the notices. -/
theorem State.flagPart_if (s : State) (b : Bool) :
    (if b then s.flagPart else s) =
      { s with notices := { s.notices with part := s.notices.part || b } } := by
  cases b <;> simp [State.flagPart]

theorem State.runCredit_withdraws (s : State) {channel count : Byte} {c : ChanIx}
    (hc : channel.toNat = c.1 + 1) (hd : s.floor.chans[c].state ≠ .disabled)
    (hn : count.toNat = 0) :
    s.runCredit channel count =
      State.done { s with floor := s.floor.modChan c (fun ch => { ch with credit := 0 }) } := by
  rw [s.runCredit_inRange hc (by omega), if_neg hd, hn]
  rfl

theorem State.runCredit_grants (s : State) {channel count : Byte} {c : ChanIx}
    (hc : channel.toNat = c.1 + 1) (hd : s.floor.chans[c].state ≠ .disabled)
    (h1 : 1 ≤ count.toNat) (hn : count.toNat ≤ 63) :
    s.runCredit channel count = State.done
      { s with
          floor := s.floor.modChan c (fun ch =>
            { ch with credit := min (ch.credit + count.toNat) 63, state := .opened })
          notices := { s.notices with
            part := s.notices.part || s.floor.chans[c].state == .pending } } := by
  have h0 : decide (count.toNat ≠ 0) = true := decide_eq_true (by omega)
  rw [s.runCredit_inRange hc hn, if_neg hd]
  simp only [h0, Bool.true_and, Channel.grant_pos h1, State.flagPart_if]
  rfl

/-! ## MAP SET (R162) -/

theorem State.runMapSet_badArgument (s : State) {kind channel : Byte}
    (h : kind.toNat = 0 ∨ 11 < kind.toNat ∨ 3 < channel.toNat) :
    s.runMapSet kind channel = s.refuse .badArgument := by
  unfold State.runMapSet
  split
  · rename_i k c hk hc
    by_cases h3 : 3 < channel.toNat
    · simp [mapArg_bad h3] at hc
    · simp [kindArg_bad (b := kind) (by omega)] at hk
  · rfl

theorem State.runMapSet_inRange (s : State) {kind channel : Byte} {k : Fin 11}
    {dest : Option ChanIx} (hk : kind.toNat = k.1 + 1)
    (hc : channel.toNat = dest.elim 0 (·.1 + 1)) :
    s.runMapSet kind channel = State.done
      { s with
          map := upd s.map k dest
          floor := s.floor.sweep { s.env with map := upd s.map k dest } } := by
  simp only [State.runMapSet, kindArg_num hk, mapArg_num hc]
  rfl

/-- Settles O13, by the cases of `runCredit` and `runMapSet`. -/
theorem creditAndMapSet : Obligations.CreditAndMapSet := by
  unfold Obligations.CreditAndMapSet
  refine ⟨fun s tag channel count h => ⟨fun hbad => ?_, fun c hc hn => ⟨fun hd => ?_,
    fun hd h0 => ?_, fun hd h1 => ?_⟩⟩, fun s tag kind channel h => ⟨fun hbad => ?_,
    fun k dest hk hc => ?_⟩⟩
  · exact request_refuses h (s.hunt.runCredit_badArgument hbad)
  · exact request_refuses h ((s.hunt.runCredit_inRange hc hn).trans (if_pos hd))
  · exact request_answers h (s.hunt.runCredit_withdraws hc hd h0)
  · exact request_answers h (s.hunt.runCredit_grants hc hd h1 hn)
  · exact request_refuses h (s.hunt.runMapSet_badArgument hbad)
  · refine request_answers h ?_
    rw [s.hunt.runMapSet_inRange hk hc, State.env_hunt, State.hunt_floor, State.hunt_map]
    generalize Floor.sweep _ _ = f
    rfl

/-! ## CHANNEL SET (R160) -/

theorem State.runChannelSet_badArgument (s : State) {channel enable : Byte}
    (h : channel.toNat = 0 ∨ 3 < channel.toNat ∨ 1 < enable.toNat) :
    s.runChannelSet channel enable = s.refuse .badArgument := by
  unfold State.runChannelSet
  split
  · rename_i c on hc hon
    by_cases he : 1 < enable.toNat
    · simp [yesNoArg_bad he] at hon
    · simp [chanArg_bad (b := channel) (by omega)] at hc
  · rfl

/-- CHANNEL SET of a channel 1 to 3 with a yes/no character is judged by the channel's state. -/
theorem State.runChannelSet_inRange (s : State) {channel enable : Byte} {c : ChanIx} {on : Bool}
    (hc : channel.toNat = c.1 + 1) (he : yesNoArg enable = some on) :
    s.runChannelSet channel enable =
      if s.floor.chans[c].state = .disabled then
        if on then (s.onFloor (fun f => f.modChan c (fun ch =>
          { ch with state := .pending, credit := 0 }))).flagPart.done
        else s.done
      else if on then s.done else (s.disableChannel c).done := by
  simp only [State.runChannelSet, chanArg_num hc, he]
  cases s.floor.chans[c].state <;> cases on <;> rfl

theorem State.inTransmission_iff (s : State) (c : ChanIx) :
    s.inTransmission c = true ↔ s.sending = some (.laneEvent c) := by
  unfold State.inTransmission State.sending
  cases s.link.tx <;> simp

/-- What is kept and what is discarded of the queue of a channel that is disabled (R160). -/
theorem State.disableChannel_eq (s : State) (c : ChanIx) :
    let kept : List LaneEvent :=
      if s.sending = some (.laneEvent c) then s.floor.chans[c].queue.take 1 else []
    let gone : List LaneEvent := if s.sending = some (.laneEvent c) then
      s.floor.chans[c].queue.drop 1 else s.floor.chans[c].queue
    let f := s.floor.modChan c (fun ch =>
      { ch with queue := kept, discarded := min (ch.discarded + gone.length) 65535
                credit := 0, pass := 0, state := .disabled })
    s.disableChannel c =
      { s with
          floor := Floor.sweep s.env { f with free := f.free ++ gone.map (·.frame.buf) }
          notices := { s.notices with part := true } } := by
  by_cases h : s.sending = some (.laneEvent c)
  · simp only [State.disableChannel, (s.inTransmission_iff c).2 h, if_pos h]
    rfl
  · have hn : s.inTransmission c = false := by
      rw [← Bool.not_eq_true, s.inTransmission_iff]
      exact h
    simp only [State.disableChannel, hn, if_neg h]
    rfl

/-- Settles O14, by the cases of `runChannelSet`. -/
theorem channelSets : Obligations.ChannelSets := by
  unfold Obligations.ChannelSets
  intro s tag channel enable h
  have no : yesNoArg 0 = some false := rfl
  have yes {b : Byte} (hb : b = 1) : yesNoArg b = some true := congrArg yesNoArg hb
  refine ⟨fun hbad => ⟨?_, ?_⟩, fun he => ?_, fun c hc => ⟨fun hd => ⟨fun he => ?_, ?_⟩,
    fun hd => ⟨fun he => ?_, ?_⟩⟩⟩
  · exact request_refuses h (s.hunt.runChannelSet_badArgument (hbad.imp_right .inl))
  · exact request_refuses h (s.hunt.runChannelSet_badArgument (hbad.imp_right .inl))
  · exact request_refuses h (s.hunt.runChannelSet_badArgument (.inr (.inr he)))
  · exact request_answers h ((s.hunt.runChannelSet_inRange hc (yes he)).trans (if_pos hd))
  · exact request_answers h ((s.hunt.runChannelSet_inRange hc no).trans (if_pos hd))
  · exact request_answers h ((s.hunt.runChannelSet_inRange hc (yes he)).trans (if_neg hd))
  · refine request_answers h (((s.hunt.runChannelSet_inRange hc no).trans (if_neg hd)).trans ?_)
    rw [s.hunt.disableChannel_eq c, State.env_hunt, State.hunt_floor, State.sending_hunt]
    generalize Floor.sweep _ _ = f
    rfl

end Sys2Proof.Machine
end

section
/-! PROOFS. RESOLVE, CLEAR and REFER (R71). -/

namespace Sys2Proof.Machine

theorem RecState.heldBy_iff (st : RecState) (c : ConsoleIx) :
    st.heldBy c = true ↔ st = .claimed c ∨ st = .attending (some c) := by
  simp [RecState.heldBy]

/-- The execution of RESOLVE on a live record, by action (R71). -/
theorem State.runResolve_live (s : State) {console slot issue action : Byte} {c : ConsoleIx}
    {k : SlotIx} {r : Record} {refer : Bool} (hc : console.toNat = c.1) (hk : slot.toNat = k.1)
    (hi : s.floor.desk.slots[k].issue.toNat = issue.toNat) (hr : s.floor.desk.recAt k = some r)
    (ha : yesNoArg action = some refer) :
    s.runResolve console slot issue action =
      if r.state.heldBy c = false then s.refuse .badState
      else if refer then
        (s.onDesk (fun d => d.modRec k (fun r => { r with needsPresence := true }))).done
      else if r.reason = .link then s.refuse .badState
      else if r.needsPresence then s.refuse .presenceRequired
      else (s.onFloor (Floor.clearRemotely s.env r.lane r.reason)).done := by
  simp only [State.runResolve, ha, withRecord_live hc hk hi hr]

/-- Settles O34, by the cases of `runResolve` on a live record. -/
theorem resolves : Obligations.Resolves := by
  unfold Obligations.Resolves
  intro s tag console slot issue c k r h hc hk hi hr mine
  have clear := s.hunt.runResolve_live (action := 0) hc hk hi hr rfl
  have refer := s.hunt.runResolve_live (action := 1) hc hk hi hr rfl
  have notHeld (hm : ¬mine) : r.state.heldBy c = false :=
    Bool.eq_false_iff.2 (mt (r.state.heldBy_iff c).1 hm)
  have held (hm : mine) : ¬r.state.heldBy c = false :=
    Bool.not_eq_false _ ▸ (r.state.heldBy_iff c).2 hm
  refine ⟨fun hm => ⟨?_, ?_⟩, fun hm => ?_, fun hm hl => ?_, fun hm hl hp => ?_,
    fun hm hl hp => ?_⟩
  · exact request_refuses h (clear.trans (if_pos (notHeld hm)))
  · exact request_refuses h (refer.trans (if_pos (notHeld hm)))
  · exact request_answers h (refer.trans (if_neg (held hm)))
  · exact request_refuses h ((clear.trans (if_neg (held hm))).trans (if_pos hl))
  · refine request_refuses h ((clear.trans (if_neg (held hm))).trans ((if_neg hl).trans ?_))
    exact if_pos hp
  · refine request_answers h ((clear.trans (if_neg (held hm))).trans ((if_neg hl).trans ?_))
    rw [if_neg (by simp [hp])]
    rfl

end Sys2Proof.Machine
end

section
/-! PROOFS. The completion of messages, the deferred pass and the sweep (R41 to R43, R158, R167, R181). -/

namespace Sys2Proof.Machine

/-! ## Completions (R158, R167, R181) -/

theorem execMessageComplete_sent {s : State} (h : s.held = none)
    (hs : (∃ c, s.sending = some (.snapshot c)) ∨ s.sending = some .partNotice ∨
      (∃ l, s.sending = some (.lineNotice l)) ∨ ∃ l, s.sending = some (.laneNotice l)) :
    execMessageComplete s = .next s.idleTx.finish := by
  unfold execMessageComplete
  rw [whenRunning_free h]
  obtain ⟨c, hc⟩ | hc | ⟨l, hc⟩ | ⟨l, hc⟩ := hs <;> simp only [hc]

theorem execMessageComplete_other {s : State}
    (hs : s.sending = none ∨ s.sending = some .response ∨ ∃ c, s.sending = some (.laneEvent c)) :
    execMessageComplete s = .next s := by
  unfold execMessageComplete whenRunning
  obtain hc | hc | ⟨c, hc⟩ := hs <;> simp only [hc, ite_self]

theorem execResponseComplete_sent {s : State} (h : s.held = none)
    (hs : s.sending = some .response) : execResponseComplete s = .next s.responseSent := by
  unfold execResponseComplete
  rw [whenRunning_free h]
  simp only [hs]

theorem State.responseSent_eq {s : State} (hp : s.mgmt.resetPending = false) :
    s.responseSent = State.finish
      { s with link := { s.link with tx := none }
               mgmt := { s.mgmt with slots := s.mgmt.slots.drop 1 } } := by
  refine if_neg fun h => ?_
  simp [hp] at h

theorem execResponseComplete_other {s : State} (hs : s.sending ≠ some .response) :
    execResponseComplete s = .next s := by
  unfold execResponseComplete whenRunning
  split
  · rfl
  · dsimp only
    split
    · exact absurd ‹_› hs
    all_goals rfl

theorem execLaneEventComplete_sent {s : State} {c : ChanIx} (h : s.held = none)
    (hs : s.sending = some (.laneEvent c)) : execLaneEventComplete s = .next (s.eventSent c) := by
  unfold execLaneEventComplete
  rw [whenRunning_free h]
  simp only [hs]

theorem State.eventSent_eq {s : State} {c : ChanIx} {ev : LaneEvent} {rest : List LaneEvent}
    (hq : s.floor.chans[c].queue = ev :: rest) :
    s.eventSent c = State.finish
      { s with
          link := { s.link with tx := none }
          floor := Floor.sweep s.env
            { s.floor.modChan c (fun ch =>
                { ch with queue := rest, sent := min (ch.sent + 1) 65535 }) with
              free := s.floor.free ++ [ev.frame.buf] } } := by
  simp only [State.eventSent, hq]
  rfl

theorem execLaneEventComplete_other {s : State} (hs : ∀ c, s.sending ≠ some (.laneEvent c)) :
    execLaneEventComplete s = .next s := by
  unfold execLaneEventComplete whenRunning
  split
  · rfl
  · dsimp only
    split
    · exact absurd ‹_› (hs _)
    all_goals rfl

/-! ## The deferred pass (R41, R42) -/

theorem Floor.processable_iff (f : Floor) (e : Env) (fr : Frame) :
    f.processable e fr = true ↔
      (f.lane fr.lane).forbids fr.body.kind = false ∧ f.room e fr.body.kind = true := by
  simp [Floor.processable]

theorem Floor.passUpTo_nil (e : Env) (l : LaneIx) (n : Nat) {f : Floor}
    (h : (f.lane l).deferred = []) : f.passUpTo e l n = f := by
  cases n with
  | zero => rfl
  | succ n => simp only [Floor.passUpTo, h]

theorem Floor.passUpTo_stops {e : Env} {l : LaneIx} {f : Floor} {fr : Frame} {rest : List Frame}
    (n : Nat) (h : (f.lane l).deferred = fr :: rest) (hp : ¬f.processable e fr = true) :
    f.passUpTo e l n = f := by
  cases n with
  | zero => rfl
  | succ n => simp only [Floor.passUpTo, h, if_neg hp]

theorem Floor.passUpTo_takes {e : Env} {l : LaneIx} {f : Floor} {fr : Frame} {rest : List Frame}
    (n : Nat) (h : (f.lane l).deferred = fr :: rest) (hp : f.processable e fr = true) :
    f.passUpTo e l (n + 1) = Floor.passUpTo e l n
      ((f.modLane l (fun x => { x with deferred := rest })).process e fr true).1 := by
  simp only [Floor.passUpTo, h, if_pos hp]

/-- A pass that takes a frame leaves no more of the list than stood behind it. -/
theorem Floor.deferred_taken (e : Env) (l : LaneIx) (f : Floor) (fr : Frame) (rest : List Frame) :
    (((f.modLane l (fun x => { x with deferred := rest })).process e fr true).1.lane l
      ).deferred.length ≤ rest.length := by
  have h := Floor.deferred_process e fr true (f.modLane l (fun x => { x with deferred := rest })) l
  rw [Floor.lane_modLane_self] at h
  obtain h | h := h <;> simp [h]

/-- A pass that may take the whole list ends where the list is empty or its head is not processable. -/
theorem Floor.passUpTo_done (e : Env) (l : LaneIx) (n : Nat) (f : Floor)
    (hn : (f.lane l).deferred.length ≤ n) :
    ((f.passUpTo e l n).lane l).deferred = [] ∨
      ∃ fr rest, ((f.passUpTo e l n).lane l).deferred = fr :: rest ∧
        ¬(f.passUpTo e l n).processable e fr = true := by
  induction n generalizing f with
  | zero => exact .inl (List.length_eq_zero_iff.1 (Nat.le_zero.1 hn))
  | succ n ih =>
    cases hd : (f.lane l).deferred with
    | nil =>
      rw [Floor.passUpTo_nil e l _ hd]
      exact .inl hd
    | cons fr rest =>
      by_cases hp : f.processable e fr = true
      · rw [Floor.passUpTo_takes n hd hp]
        refine ih _ (Nat.le_trans (Floor.deferred_taken e l f fr rest) ?_)
        rw [hd] at hn
        exact Nat.le_of_succ_le_succ hn
      · rw [Floor.passUpTo_stops _ hd hp]
        exact .inr ⟨fr, rest, hd, hp⟩

/-! ## The sweep (R43) -/

/-- The sweep after its first `n` visits: the floor, and the first lane whose pass took a frame. -/
def Floor.sweepTo (e : Env) (f : Floor) (n : Nat) : Floor × Option LaneIx :=
  ((allLanes.map (fun i => f.releasePtr + i)).take n).foldl (Floor.visit e) (f, none)

/-- The `i`-th visit of a sweep took a frame. -/
def Floor.sweepTook (e : Env) (f : Floor) (i : LaneIx) : Prop :=
  (((f.sweepTo e (i.1 + 1)).1.lane (f.releasePtr + i)).deferred.length <
    ((f.sweepTo e i.1).1.lane (f.releasePtr + i)).deferred.length)

theorem Floor.sweepTo_succ (e : Env) (f : Floor) (i : LaneIx) :
    f.sweepTo e (i.1 + 1) = Floor.visit e (f.sweepTo e i.1) (f.releasePtr + i) := by
  have hi : i.1 < (allLanes.map (fun i => f.releasePtr + i)).length := by
    simp [allLanes]
  unfold Floor.sweepTo
  rw [List.take_succ_eq_append_getElem hi, List.foldl_append]
  simp [allLanes]

/-- All 24 visits of a sweep. -/
theorem Floor.sweepTo_all (e : Env) (f : Floor) :
    f.sweepTo e 24 =
      (allLanes.map (fun i => f.releasePtr + i)).foldl (Floor.visit e) (f, none) := by
  have hlen : (allLanes.map (fun i => f.releasePtr + i)).length ≤ 24 := by simp [allLanes]
  unfold Floor.sweepTo
  rw [List.take_of_length_le hlen]

theorem Floor.sweep_none {e : Env} {f : Floor} (h : (f.sweepTo e 24).2 = none) :
    f.sweep e = (f.sweepTo e 24).1 := by
  rw [Floor.sweepTo_all] at h ⊢
  unfold Floor.sweep
  generalize List.foldl _ _ _ = r at h ⊢
  simp only [h]

theorem Floor.sweep_some {e : Env} {f : Floor} {l : LaneIx} (h : (f.sweepTo e 24).2 = some l) :
    f.sweep e = { (f.sweepTo e 24).1 with releasePtr := l + 1 } := by
  rw [Floor.sweepTo_all] at h ⊢
  unfold Floor.sweep
  generalize List.foldl _ _ _ = r at h ⊢
  simp only [h]

theorem Floor.visit_skips {e : Env} {a : Floor × Option LaneIx} {l : LaneIx}
    (h : (a.1.lane l).deferred = []) : Floor.visit e a l = a :=
  if_pos (by simp [h])

theorem Floor.visit_passes {e : Env} {a : Floor × Option LaneIx} {l : LaneIx}
    (h : (a.1.lane l).deferred ≠ []) : (Floor.visit e a l).1 = a.1.pass e l := by
  have hne : ¬(a.1.lane l).deferred.isEmpty = true := by simpa using h
  simp only [Floor.visit, if_neg hne]

/-- A visit records its lane where it is the first whose pass took a frame. -/
theorem Floor.visit_snd (e : Env) (a : Floor × Option LaneIx) (l : LaneIx) :
    (Floor.visit e a l).2 = a.2.or
      (if ((Floor.visit e a l).1.lane l).deferred.length < (a.1.lane l).deferred.length
        then some l else none) := by
  unfold Floor.visit
  split <;> simp

theorem Floor.sweepTo_snd_none {e : Env} {f : Floor} {n : Nat} (hn : n ≤ 24)
    (h : ∀ i : LaneIx, i.1 < n → ¬f.sweepTook e i) : (f.sweepTo e n).2 = none := by
  induction n with
  | zero => rfl
  | succ n ih =>
    have hlast := h ⟨n, hn⟩ (Nat.lt_succ_self n)
    unfold Floor.sweepTook at hlast
    rw [f.sweepTo_succ e ⟨n, hn⟩] at hlast ⊢
    rw [Floor.visit_snd, ih (Nat.le_of_succ_le hn) fun i hi => h i (Nat.lt_succ_of_lt hi),
      if_neg hlast]
    rfl

theorem Floor.sweepTo_snd_some {e : Env} {f : Floor} {i : LaneIx} {n : Nat} (hn : n ≤ 24)
    (hi : i.1 < n) (ht : f.sweepTook e i) (hb : ∀ j, j < i → ¬f.sweepTook e j) :
    (f.sweepTo e n).2 = some (f.releasePtr + i) := by
  induction n with
  | zero => exact absurd hi (Nat.not_lt_zero _)
  | succ n ih =>
    rw [f.sweepTo_succ e ⟨n, hn⟩, Floor.visit_snd]
    obtain hlt | heq := Nat.lt_succ_iff_lt_or_eq.1 hi
    · rw [ih (Nat.le_of_succ_le hn) hlt]
      rfl
    · have hni : (⟨n, hn⟩ : LaneIx) = i := Fin.ext heq.symm
      subst hni
      unfold Floor.sweepTook at ht
      rw [f.sweepTo_succ e ⟨n, hn⟩] at ht
      rw [f.sweepTo_snd_none (Nat.le_of_succ_le hn) fun j hj => hb j hj, if_pos ht]
      rfl

/-- Settles O39: the completions by what is being sent, the pass by the length of its list, and the sweep
by the floors `sweepTo` between its visits. -/
theorem transmissionsComplete : Obligations.TransmissionsComplete := by
  unfold Obligations.TransmissionsComplete
  refine ⟨fun s h => ⟨fun hs => execMessageComplete_sent h hs, fun hs hp => ?_,
    fun c ev rest hs hq => ?_, execMessageComplete_other, execResponseComplete_other,
    execLaneEventComplete_other⟩, fun e l f => ?_, fun e f => ?_⟩
  · exact (execResponseComplete_sent h hs).trans (congrArg _ (State.responseSent_eq hp))
  · exact (execLaneEventComplete_sent h hs).trans (congrArg _ (State.eventSent_eq hq))
  · dsimp only
    simp only [← Floor.processable_iff]
    exact ⟨rfl, rfl, Floor.passUpTo_done e l _ _ (Nat.le_refl _), fun n => ⟨Floor.passUpTo_nil e l _,
      fun fr rest hd => ⟨Floor.passUpTo_stops _ hd, Floor.passUpTo_takes n hd⟩⟩⟩
  · refine ⟨fun n => (f.sweepTo e n).1, rfl, fun i => ⟨fun hd => ?_, fun hd => ?_⟩,
      fun i ht hb => ?_, fun hno => ?_⟩
    · dsimp only
      rw [f.sweepTo_succ e i, Floor.visit_skips hd]
    · dsimp only
      rw [f.sweepTo_succ e i, Floor.visit_passes hd]
    · exact Floor.sweep_some (Floor.sweepTo_snd_some (Nat.le_refl _) i.2 ht hb)
    · exact Floor.sweep_none (Floor.sweepTo_snd_none (Nat.le_refl _) fun i _ => hno i)

end Sys2Proof.Machine
end

section
/-! PROOFS. The directive word at the end of an event (R45, R46, R48). -/

namespace Sys2Proof.Machine

/-! ## Which lanes are derived (R48) -/

/-- A fold that changes the chosen lanes of a list without repetition changes each of them once. -/
theorem Floor.lane_foldl_modLane (chosen : LaneIx → Bool) (g : Lane → Lane) (ls : List LaneIx)
    (hls : ls.Nodup) (f : Floor) (k : LaneIx) :
    (ls.foldl (fun f l => if chosen l then f.modLane l g else f) f).lane k =
      if k ∈ ls ∧ chosen k = true then g (f.lane k) else f.lane k := by
  induction ls generalizing f with
  | nil => simp
  | cons l ls ih =>
    obtain ⟨hl, hls⟩ := List.nodup_cons.1 hls
    rw [List.foldl_cons, ih hls]
    by_cases hk : k = l
    · subst hk
      by_cases hc : chosen k = true <;> simp [hl, hc]
    · have step : (if chosen l then f.modLane l g else f).lane k = f.lane k := by
        split
        · exact Floor.lane_modLane_ne f l k g hk
        · rfl
      simp [hk, step]

theorem Floor.lane_deriveTouched (f : Floor) (l : LaneIx) :
    f.deriveTouched.lane l =
      if hasLane f.touched l = true then (f.lane l).derive false else f.lane l := by
  have h := Floor.lane_foldl_modLane (hasLane f.touched) (Lane.derive false) allLanes
    (List.nodup_finRange 24) f l
  have hl : l ∈ allLanes := List.mem_finRange l
  simp only [hl, true_and] at h
  exact h

/-! ## The derived word (R45, R46) -/

theorem Lane.derive_eq (force : Bool) (x : Lane) :
    x.derive force = { x with word := (x.derive force).word } := by
  unfold Lane.derive
  dsimp only
  split <;> rfl

/-- A lane's word says what R45 and R46 derive from it. -/
def Lane.wordStands (x : Lane) : Prop :=
  x.word.lamp = x.lamp ∧ x.word.pause = x.pause ∧ x.word.message = x.message

theorem Lane.derive_of_stands {x : Lane} (h : x.wordStands) : x.derive false = x :=
  if_pos ⟨rfl, h⟩

theorem Lane.word_derive_of_not_stands {x : Lane} (h : ¬x.wordStands) :
    (x.derive false).word =
      { lamp := x.lamp, pause := x.pause, message := x.message
        gen := nextGen x.word.gen x.echo x.lastDirect } :=
  congrArg Lane.word (if_neg fun hw => h hw.2)

theorem Lane.word_derive (x : Lane) :
    (x.derive false).word.lamp = x.lamp ∧ (x.derive false).word.pause = x.pause ∧
      (x.derive false).word.message = x.message := by
  by_cases h : x.wordStands
  · rw [Lane.derive_of_stands h]
    exact h
  · rw [Lane.word_derive_of_not_stands h]
    exact ⟨rfl, rfl, rfl⟩

theorem Lane.hasClass_iff (x : Lane) (c : ReasonClass) :
    x.hasClass c = true ↔ ∃ r, x.has r = true ∧ r.cls = c := by
  simp [Lane.hasClass, Lane.mem_reasons]

theorem Lane.reasons_isEmpty_iff (x : Lane) :
    x.reasons.isEmpty = true ↔ ∀ r, x.has r = false := by
  simp only [List.isEmpty_iff, List.eq_nil_iff_forall_not_mem, Lane.mem_reasons, Bool.not_eq_true]

theorem Lane.lamp_closed {x : Lane} (h : x.state = .closed) : x.lamp = .off := if_pos h

theorem Lane.lamp_red {x : Lane} (h : x.state ≠ .closed) (hb : x.hasClass .blocking = true) :
    x.lamp = .red := by
  simp only [Lane.lamp, if_neg h, if_pos hb]

theorem Lane.lamp_amber {x : Lane} (h : x.state ≠ .closed) (hb : ¬x.hasClass .blocking = true)
    (hr : ∃ r, x.has r = true) : x.lamp = .amber := by
  have hne : ¬x.reasons.isEmpty = true := fun he => by
    obtain ⟨r, hr⟩ := hr
    simp [x.reasons_isEmpty_iff.1 he r] at hr
  simp only [Lane.lamp, if_neg h, if_neg hb, if_neg hne]

theorem Lane.lamp_green {x : Lane} (h : x.state ≠ .closed) (hr : ∀ r, x.has r = false) :
    x.lamp = .green := by
  have hb : ¬x.hasClass .blocking = true := fun hb => by
    obtain ⟨r, hr', -⟩ := (x.hasClass_iff _).1 hb
    simp [hr r] at hr'
  simp only [Lane.lamp, if_neg h, if_neg hb, if_pos (x.reasons_isEmpty_iff.2 hr)]

theorem Lane.pause_iff (x : Lane) :
    x.pause = true ↔
      x.hasClass .blocking = true ∨ x.deferred.length = 6 ∨ x.refusalMark = true := by
  simp [Lane.pause, Config.maxDeferred, or_assoc]

/-- The sign of WEIGHT's detail: `above` where it is raised and is greater than 0 just where `above`
says so (R46). -/
theorem Lane.weightAbove_iff (x : Lane) (above : Bool) :
    x.weightAbove = some above ↔ ∃ en, x.entry .weight = some en ∧
      (above = true ↔ ∃ d : Int, en.detail = some (.grams d) ∧ 0 < d) := by
  unfold Lane.weightAbove
  cases x.entry .weight with
  | none => simp
  | some en =>
    obtain ⟨stamp, queued, detail⟩ := en
    cases detail with
    | none => cases above <;> simp
    | some d => cases d <;> cases above <;> simp

theorem Lane.has_weight_iff (x : Lane) :
    x.has .weight = true ↔ x.weightAbove = some true ∨ x.weightAbove = some false := by
  unfold Lane.has Lane.weightAbove
  cases x.entry .weight with
  | none => simp
  | some en =>
    simp only [Option.map_some, Option.some.injEq, Option.isSome_some, true_iff]
    exact Bool.eq_false_or_eq_true _

/-- The message of an open lane without a refusal message or a session, from the bag timer and the reasons
on (R46). -/
theorem Lane.message_unattended {x : Lane} (h : x.state ≠ .closed) (hr : x.refusal = none)
    (hs : x.session = none) :
    x.message =
      if x.weightAbove = some true then .removeItem
      else if x.bagSettle.isSome || x.has .weight then .placeItem
      else if x.hasClass .blocking || x.hasClass .gating then .waitAssist
      else if x.has .help then .callNoted
      else .none := by
  simp [Lane.message, h, hr, hs]

/-! ## The next generation (R48) -/

/-- A generation may be taken next: it is neither the echoed one nor that of the last DIRECT. -/
def genAllowed (echo last : Option Gen) (o : Gen) : Prop := echo ≠ some o ∧ last ≠ some o

/-- `nextGen` takes the first allowed one of the next three generations. -/
theorem nextGen_cases (g : Gen) (echo last : Option Gen) :
    (nextGen g echo last = g + 1 ∧ genAllowed echo last (g + 1)) ∨
    (nextGen g echo last = g + 2 ∧ genAllowed echo last (g + 2) ∧
      ¬genAllowed echo last (g + 1)) ∨
    (nextGen g echo last = g + 3 ∧ ¬genAllowed echo last (g + 2) ∧
      ¬genAllowed echo last (g + 1)) := by
  have ok (o : Gen) : (echo != some o && last != some o) = true ↔ genAllowed echo last o := by
    simp [genAllowed]
  by_cases h1 : genAllowed echo last (g + 1)
  · exact .inl ⟨if_pos ((ok _).2 h1), h1⟩
  · have e1 := fun h => h1 ((ok (g + 1)).1 h)
    by_cases h2 : genAllowed echo last (g + 2)
    · exact .inr (.inl ⟨(if_neg e1).trans (if_pos ((ok _).2 h2)), h2, h1⟩)
    · exact .inr (.inr ⟨(if_neg e1).trans (if_neg fun h => h2 ((ok _).1 h)), h2, h1⟩)

/-- Two generations at most are not allowed, so the third of three in a row is where two are not. -/
theorem genAllowed_third {echo last : Option Gen} {a b c : Gen} (hab : a ≠ b) (hac : a ≠ c)
    (hbc : b ≠ c) (ha : ¬genAllowed echo last a) (hb : ¬genAllowed echo last b) :
    genAllowed echo last c := by
  unfold genAllowed at *
  grind

/-- The next generation after `g` is new, and the nearest of those allowed. -/
theorem nextGen_spec (g : Gen) (echo last : Option Gen) :
    genAllowed echo last (nextGen g echo last) ∧ nextGen g echo last ≠ g ∧
      ∀ o : Gen, o ≠ g → genAllowed echo last o →
        (nextGen g echo last - g).toNat ≤ (o - g).toNat := by
  obtain ⟨e, h1⟩ | ⟨e, h2, h1⟩ | ⟨e, h2, h1⟩ := nextGen_cases g echo last
  · rw [e]
    exact ⟨h1, by bv_omega, fun o ho _ => by bv_omega⟩
  · rw [e]
    refine ⟨h2, by bv_omega, fun o ho hok => ?_⟩
    have ne1 : o ≠ g + 1 := fun h => h1 (h ▸ hok)
    bv_omega
  · rw [e]
    refine ⟨genAllowed_third (a := g + 1) (b := g + 2) ?_ ?_ ?_ h1 h2, by bv_omega,
      fun o ho hok => ?_⟩
    · bv_omega
    · bv_omega
    · bv_omega
    · have ne1 : o ≠ g + 1 := fun h => h1 (h ▸ hok)
      have ne2 : o ≠ g + 2 := fun h => h2 (h ▸ hok)
      bv_omega

/-- The generation of a derived word: the next one where the word changes. -/
theorem Lane.gen_derive {x : Lane} (h : ¬x.wordStands) :
    (x.derive false).word.gen = nextGen x.word.gen x.echo x.lastDirect := by
  rw [Lane.word_derive_of_not_stands h]

/-- Settles O53: the lanes that took part are derived, and a derived word is read off `word_derive`. -/
theorem directiveWordDerived : Obligations.DirectiveWordDerived := by
  unfold Obligations.DirectiveWordDerived
  intro f l x y blocking gating weight
  have hy : y = if hasLane f.touched l = true then x.derive false else x :=
    f.lane_deriveTouched l
  have hblocking : blocking ↔ x.hasClass .blocking = true := (x.hasClass_iff _).symm
  have hgating : gating ↔ x.hasClass .gating = true := (x.hasClass_iff _).symm
  have hweight (above : Bool) : weight above ↔ x.weightAbove = some above :=
    (x.weightAbove_iff above).symm
  clear_value blocking gating weight y x
  refine ⟨fun ht => hy.trans (if_neg (by simp [ht])), fun ht => ?_⟩
  rw [if_pos ht] at hy
  obtain ⟨hlamp, hpause, hmessage⟩ := x.word_derive
  rw [hy, hlamp, hpause, hmessage]
  simp only [hblocking, hgating, hweight]
  refine ⟨Lane.derive_eq false x, Lane.lamp_closed, Lane.lamp_red, Lane.lamp_amber,
    Lane.lamp_green, x.pause_iff, fun hc => if_pos hc, fun ho => ⟨fun m hm => ?_, fun hr =>
      ⟨fun hs => ?_, fun hs => ?_⟩⟩, fun h1 h2 h3 => ?_, fun hne => ?_⟩
  · simp [Lane.message, ho, hm]
  · simp [Lane.message, ho, hr, hs]
  · rw [Lane.message_unattended ho hr hs]
    refine ⟨fun hw => if_pos hw, fun hw hb => ?_, fun hw hw' hb => ?_⟩
    · rw [if_neg hw, if_pos (by simpa [x.has_weight_iff] using hb.imp_right .inr)]
    · have hplace : ¬(x.bagSettle.isSome || x.has .weight) = true := by
        simp [hb, hw, hw', x.has_weight_iff]
      rw [if_neg hw, if_neg hplace, ← Bool.or_eq_true]
      exact ⟨fun hh => if_pos hh, fun hh hp => (if_neg hh).trans (if_pos hp),
        fun hh hp => (if_neg hh).trans (if_neg (by simp [hp]))⟩
  · rw [Lane.derive_of_stands ⟨h1.symm, h2.symm, h3.symm⟩]
  · have hns : ¬x.wordStands := fun ⟨h1, h2, h3⟩ => by simp [h1, h2, h3] at hne
    obtain ⟨hok, hnew, hnearest⟩ := nextGen_spec x.word.gen x.echo x.lastDirect
    rw [Lane.gen_derive hns]
    exact ⟨hok.1, hok.2, hnew, fun g hg he hd => hnearest g hg ⟨he, hd⟩⟩

end Sys2Proof.Machine
end

section
/-! PROOFS. Raising a reason, and taking one out of the raised set (R32 to R37, R51, R53, R54, R61, R77). -/

namespace Sys2Proof.Machine

theorem hasLane_addLane_self (v : LaneSet) (l : LaneIx) : hasLane (addLane v l) l = true := by
  simp [hasLane_addLane]

/-! ## One lane changed and flagged -/

/-- The floor `g` is `f` with the lane `l` changed by `h` and flagged, as far as the lanes and their flags
go; the desk may differ. -/
structure Floor.ChangedAt (f : Floor) (l : LaneIx) (h : Lane → Lane) (g : Floor) : Prop where
  lanes : g.lanes = (f.modLane l h).lanes
  laneFlags : g.laneFlags = addLane f.laneFlags l
  touched : g.touched = addLane f.touched l

section
variable {f g : Floor} {l : LaneIx} {h : Lane → Lane}

theorem Floor.ChangedAt.self (c : f.ChangedAt l h g) : g.lane l = h (f.lane l) :=
  (Floor.lane_congr c.lanes l).trans (Floor.lane_modLane_self ..)

theorem Floor.ChangedAt.other (c : f.ChangedAt l h g) (k : LaneIx) (hk : k ≠ l) :
    g.lane k = f.lane k :=
  (Floor.lane_congr c.lanes k).trans (Floor.lane_modLane_ne _ _ _ _ hk)

theorem Floor.ChangedAt.flagged (c : f.ChangedAt l h g) : hasLane g.laneFlags l = true := by
  rw [c.laneFlags]
  exact hasLane_addLane_self ..

theorem Floor.ChangedAt.takesPart (c : f.ChangedAt l h g) : hasLane g.touched l = true := by
  rw [c.touched]
  exact hasLane_addLane_self ..

end

/-! ## Insertions owed before a raise (R54) -/

theorem Floor.freedSlots_insertions (p : Params) (f : Floor) :
    (f.insertions p).desk.freedSlots = 0 := rfl

theorem Floor.insertions_of_none_owed (p : Params) {f : Floor} (h : f.desk.freedSlots = 0) :
    f.insertions p = f := by
  obtain ⟨lanes, ⟨slots, consoles, freeOrder, unqueued, expiries, recalls, due, freed⟩⟩ := f
  subst h
  rfl

/-! ## Which of the three things a raise does (R33, R34) -/

theorem Reason.outlives_iff (r : Reason) : r.outlives = true ↔ r = .help ∨ r = .link := by
  simp [Reason.outlives_eq]

theorem mayCarry_iff (st : LaneState) (r : Reason) :
    mayCarry st r = true ↔ st ≠ .closed ∨ r = .help ∨ r = .link := by
  simp [mayCarry, Reason.outlives_iff]

section
variable (e : Env) (l : LaneIx) (r : Reason) (detail : Option Detail) (src : Option HelpSource)

theorem Floor.raise_without_effect {before : Floor}
    (h : ¬mayCarry ((before.insertions e.params).lane l).state r = true) :
    before.raise e l r detail src = before.insertions e.params :=
  if_neg h

theorem Floor.raise_merges {before : Floor} {en : Raised}
    (h : mayCarry ((before.insertions e.params).lane l).state r = true)
    (hen : ((before.insertions e.params).lane l).entry r = some en) :
    before.raise e l r detail src = (before.insertions e.params).merge l r en detail src := by
  simp only [Floor.raise, if_pos h, hen]

theorem Floor.raise_adds {before : Floor}
    (h : mayCarry ((before.insertions e.params).lane l).state r = true)
    (hen : ((before.insertions e.params).lane l).entry r = none) :
    before.raise e l r detail src = (before.insertions e.params).raiseNew e l r detail src := by
  simp only [Floor.raise, if_pos h, hen]

end

/-! ## HELP sources (R35) -/

theorem HelpSources.add_none (h : HelpSources) : h.add none = h := rfl

theorem HelpSources.add_eq (h : HelpSources) (src : Option HelpSource) :
    h.add src = { screen := h.screen || src == some .screen
                  button := h.button || src == some .button
                  limit := h.limit || src == some .limit } := by
  obtain _ | _ | _ | _ := src <;> simp [HelpSources.add]

/-! ## A merge (R33) -/

/-- A lane whose entry of a reason takes the newer detail, with a source added (R33, R35). -/
def Lane.withMerge (r : Reason) (en : Raised) (detail : Option Detail) (src : Option HelpSource)
    (x : Lane) : Lane :=
  { x.setEntry r (some { en with detail := detail.or en.detail }) with help := x.help.add src }

theorem Lane.entry_withMerge (r : Reason) (en : Raised) (detail : Option Detail)
    (src : Option HelpSource) (x : Lane) (q : Reason) :
    (x.withMerge r en detail src).entry q =
      if q = r then some { en with detail := detail.or en.detail } else x.entry q :=
  Lane.entry_setEntry ..

theorem Lane.help_withMerge (r : Reason) (en : Raised) (detail : Option Detail)
    (src : Option HelpSource) (x : Lane) :
    (x.withMerge r en detail src).help = x.help.add src := rfl

section
variable (l : LaneIx) (r : Reason) (en : Raised) (detail : Option Detail) (src : Option HelpSource)
  (f : Floor)

theorem Floor.merge_changedAt :
    f.ChangedAt l (Lane.withMerge r en detail src) (f.merge l r en detail src) := by
  unfold Floor.merge
  dsimp only
  split
  · split <;> exact ⟨rfl, rfl, rfl⟩
  · exact ⟨rfl, rfl, rfl⟩

/-- A merge with a queued entry gives a newer detail to its record (R33). -/
theorem Floor.recAt_merge {k : SlotIx} (hq : en.queued = true) (hk : f.desk.find l r = some k) :
    (f.merge l r en detail src).desk.recAt k = (f.desk.recAt k).map (fun y =>
      { y with detail := if detail.isSome then detail else y.detail }) := by
  cases detail with
  | none => simp [Floor.merge]
  | some v => simp [Floor.merge, hq, hk]

end

/-! ## A new raise (R32, R53) -/

theorem Desk.insert_none {d : Desk} (h : d.freeSlot = none) (p : Params) (l : LaneIx) (r : Reason)
    (stamp : Stamp) (detail : Option Detail) (session : Bool) :
    d.insert p l r stamp detail session = none := by
  simp only [Desk.insert, h, Option.map_none]

theorem Desk.insert_some {d : Desk} {k : SlotIx} (h : d.freeSlot = some k) (p : Params)
    (l : LaneIx) (r : Reason) (stamp : Stamp) (detail : Option Detail) (session : Bool) :
    d.insert p l r stamp detail session = some
      { d with slots := upd d.slots k
                 { d.slots[k] with rec? := some (newRecord p l r stamp detail session) }
               dispatchDue := d.dispatchDue || !session } := by
  simp only [Desk.insert, h, Option.map_some]

/-- A lane with a new entry of a reason, and with HELP its source alone (R32, R35). -/
def Lane.withRaise (e : Env) (r : Reason) (detail : Option Detail) (src : Option HelpSource)
    (queued : Bool) (x : Lane) : Lane :=
  { x.setEntry r (some { stamp := e.now, queued := queued, detail := detail }) with
      help := if r = .help then HelpSources.add {} src else x.help }

section
variable (e : Env) (l : LaneIx) (r : Reason) (detail : Option Detail) (src : Option HelpSource)
  (f : Floor)

theorem Lane.entry_withRaise (queued : Bool) (x : Lane) (q : Reason) :
    (x.withRaise e r detail src queued).entry q =
      if q = r then some { stamp := e.now, queued := queued, detail := detail } else x.entry q :=
  Lane.entry_setEntry ..

theorem Lane.help_withRaise (queued : Bool) (x : Lane) :
    (x.withRaise e r detail src queued).help =
      if r = .help then HelpSources.add {} src else x.help := rfl

theorem Floor.raiseNew_inserts {k : SlotIx} (h : f.desk.freeSlot = some k) :
    f.raiseNew e l r detail src =
      { (f.modLane l (Lane.withRaise e r detail src true)).flag l with
        desk := { f.desk with
          slots := upd f.desk.slots k
            { f.desk.slots[k] with
                rec? := some (newRecord e.params l r e.now detail (f.lane l).session.isSome) }
          dispatchDue := f.desk.dispatchDue || !(f.lane l).session.isSome } } := by
  simp only [Floor.raiseNew, Desk.insert_some h]
  rfl

theorem Floor.raiseNew_unqueued (h : f.desk.freeSlot = none) :
    f.raiseNew e l r detail src =
      { (f.modLane l (Lane.withRaise e r detail src false)).flag l with
        desk := { f.desk with unqueuedRaises := bump f.desk.unqueuedRaises } } := by
  simp only [Floor.raiseNew, Desk.insert_none h]
  rfl

/-- A new raise changes one lane and flags it, whether its reason finds a slot or not. -/
theorem Floor.raiseNew_changedAt :
    f.ChangedAt l (Lane.withRaise e r detail src f.desk.freeSlot.isSome)
      (f.raiseNew e l r detail src) := by
  cases h : f.desk.freeSlot with
  | none =>
    rw [Floor.raiseNew_unqueued e l r detail src f h]
    exact ⟨rfl, rfl, rfl⟩
  | some k =>
    rw [Floor.raiseNew_inserts e l r detail src f h]
    exact ⟨rfl, rfl, rfl⟩

end

/-! ## The end of a record (R51, R54, R61, R77) -/

theorem Desk.modConsole_congr {d : Desk} {c : ConsoleIx} {g h : Console → Console}
    (e : g (d.console c) = h (d.console c)) : d.modConsole c g = d.modConsole c h := by
  unfold Desk.modConsole
  rw [e]

/-- An unsent offer taken away gives its console back what was saved of its snapshot (R61). -/
theorem Desk.unofferTo_saved {d : Desk} {c : ConsoleIx} {pending : Bool} {old : Cause}
    (cause : Cause) (h : (d.console c).saved = some (pending, old)) :
    d.unofferTo c false cause =
      { d.modConsole c (fun x =>
          { x with state := .free, pending := pending, cause := old, saved := none }) with
        freeOrder := d.freeOrder ++ [c], dispatchDue := true } := by
  rw [Desk.unofferTo_eq, Desk.modConsole_congr]
  simp only [h]

theorem Desk.unofferTo_unsaved {d : Desk} {c : ConsoleIx} (cause : Cause)
    (h : (d.console c).saved = none) :
    d.unofferTo c false cause =
      { d.modConsole c (fun x => { x with state := .free }) with
        freeOrder := d.freeOrder ++ [c], dispatchDue := true } := by
  rw [Desk.unofferTo_eq, Desk.modConsole_congr]
  simp only [h]

/-- The slot of a record that ends is free with its next issue, and an insertion is owed (R51, R54). -/
def Desk.retire (d : Desk) (k : SlotIx) : Desk :=
  { d with slots := upd d.slots k { issue := d.slots[k].issue + 1, rec? := none }
           freedSlots := d.freedSlots + 1 }

section
variable {d : Desk} {k : SlotIx} {r : Record} (cause : Cause)

theorem Desk.endRecord_unnamed (hr : d.recAt k = some r)
    (hs : r.state = .waiting ∨ r.state = .attending none) : d.endRecord k cause = d.retire k := by
  unfold Desk.endRecord
  obtain hs | hs := hs <;> simp only [hr, hs] <;> rfl

theorem Desk.endRecord_named {c : ConsoleIx} (hr : d.recAt k = some r)
    (hs : r.state = .offered c true ∨ r.state = .claimed c ∨ r.state = .attending (some c)) :
    d.endRecord k cause = (d.unofferTo c true cause).retire k := by
  unfold Desk.endRecord
  obtain hs | hs | hs := hs <;> simp only [hr, hs] <;> rfl

theorem Desk.endRecord_unsent {c : ConsoleIx} (hr : d.recAt k = some r)
    (hs : r.state = .offered c false) :
    d.endRecord k cause = (d.unofferTo c false cause).retire k := by
  unfold Desk.endRecord
  simp only [hr, hs]
  rfl

theorem Desk.slots_unofferTo (d : Desk) (c : ConsoleIx) (sent : Bool) (cause : Cause) :
    (d.unofferTo c sent cause).slots = d.slots := by
  cases sent <;> rfl

/-- Whatever console it frees, the end of a record leaves its slot free with the next issue (R51). -/
theorem Desk.slot_endRecord (hr : d.recAt k = some r) :
    (d.endRecord k cause).slots[k] = { issue := d.slots[k].issue + 1, rec? := none } := by
  have retired (d' : Desk) (h : d'.slots = d.slots) :
      (d'.retire k).slots[k] = { issue := d.slots[k].issue + 1, rec? := none } := by
    rw [← h]
    exact upd_get_self ..
  cases hs : r.state with
  | waiting =>
    rw [Desk.endRecord_unnamed cause hr (.inl hs)]
    exact retired d rfl
  | offered c sent =>
    cases sent with
    | true =>
      rw [Desk.endRecord_named cause hr (.inl hs)]
      exact retired _ (d.slots_unofferTo c true cause)
    | false =>
      rw [Desk.endRecord_unsent cause hr hs]
      exact retired _ (d.slots_unofferTo c false cause)
  | claimed c =>
    rw [Desk.endRecord_named cause hr (.inr (.inl hs))]
    exact retired _ (d.slots_unofferTo c true cause)
  | attending by_ =>
    cases by_ with
    | none =>
      rw [Desk.endRecord_unnamed cause hr (.inr hs)]
      exact retired d rfl
    | some c =>
      rw [Desk.endRecord_named cause hr (.inr (.inr hs))]
      exact retired _ (d.slots_unofferTo c true cause)

end

/-! ## Taking a reason out (R36, R37) -/

theorem Desk.recAt_of_find {d : Desk} {l : LaneIx} {r : Reason} {k : SlotIx}
    (h : d.find l r = some k) : ∃ x, d.recAt k = some x := by
  have hp := List.find?_some h
  cases hx : d.recAt k with
  | none => simp [hx] at hp
  | some x => exact ⟨x, rfl⟩

section
variable (cause : Cause) {l : LaneIx} {r : Reason} {f : Floor} {en : Raised}

theorem Floor.takeOut_changedAt (hen : (f.lane l).entry r = some en) :
    f.ChangedAt l (fun x => x.without r) (f.takeOut cause l r) := by
  simp only [Floor.takeOut, hen]
  split
  · split <;> exact ⟨rfl, rfl, rfl⟩
  · exact ⟨rfl, rfl, rfl⟩

theorem Floor.desk_takeOut_queued {k : SlotIx} (hen : (f.lane l).entry r = some en)
    (hq : en.queued = true) (hk : f.desk.find l r = some k) :
    (f.takeOut cause l r).desk = f.desk.endRecord k cause := by
  simp [Floor.takeOut, hen, hq, hk]

theorem Floor.desk_takeOut_unqueued (hen : (f.lane l).entry r = some en)
    (h : en.queued = false ∨ f.desk.find l r = none) :
    (f.takeOut cause l r).desk = f.desk := by
  obtain h | h := h
  · simp [Floor.takeOut, hen, h]
  · by_cases hq : en.queued = true <;> simp [Floor.takeOut, hen, h, hq]

end

theorem Lane.without_help (x : Lane) :
    (x.without .help).help = {} ∧ (x.without .help).call.pending = false := ⟨rfl, rfl⟩

theorem Lane.without_ne_help (x : Lane) {r : Reason} (h : r ≠ .help) :
    (x.without r).help = x.help ∧ (x.without r).call = x.call := by
  unfold Lane.without
  rw [if_neg h]
  exact ⟨rfl, rfl⟩

/-- Settles O52, by the cases of a raise (without effect, merged, new), of a reason taken out, and of the
state of a record that ends. -/
theorem reasonsRaisedAndTakenOut : Obligations.ReasonsRaisedAndTakenOut := by
  unfold Obligations.ReasonsRaisedAndTakenOut
  refine ⟨fun e before l r detail src => ?_, fun f l r cause => ?_, fun _ _ _ => rfl,
    fun _ _ _ => rfl, fun d k r cause hr => ?_⟩
  · intro f x g has
    refine ⟨before.freedSlots_insertions e.params, before.insertions_of_none_owed e.params,
      fun hc h1 h2 => ?_, fun hmay => ?_⟩
    · refine Floor.raise_without_effect e l r detail src ?_
      rw [mayCarry_iff]
      exact fun h => h.elim (fun ho => ho hc) (fun hr => hr.elim h1 h2)
    · have hcarry : mayCarry x.state r = true := (mayCarry_iff _ _).2 hmay
      cases hx : x.entry r with
      | none =>
        have hg : g = f.raiseNew e l r detail src := Floor.raise_adds e l r detail src hcarry hx
        have hc := f.raiseNew_changedAt e l r detail src
        rw [hg]
        refine ⟨hc.flagged, hc.takesPart, hc.other, fun q hq => ?_, fun hr hs => ?_,
          fun en hen => ?_, fun _ => ⟨fun hr => ?_, fun k hk => ⟨?_, ?_, ?_⟩,
            fun hk => ⟨?_, ?_, ?_⟩⟩⟩
        · rw [hc.self, Lane.entry_withRaise, if_neg hq]
        · rw [hc.self, Lane.help_withRaise, if_neg hr]
        · cases hen
        · rw [hc.self, Lane.help_withRaise, if_pos hr, HelpSources.add_eq]
          simp [has]
        · rw [hc.self, Lane.entry_withRaise, if_pos rfl, hk]
          rfl
        · rw [Floor.raiseNew_inserts e l r detail src f hk]
          exact congrArg QSlot.rec? (upd_get_self ..)
        · rw [Floor.raiseNew_inserts e l r detail src f hk]
          exact congrArg (f.desk.dispatchDue || ·) (Option.not_isSome _)
        · rw [hc.self, Lane.entry_withRaise, if_pos rfl, hk]
          rfl
        · rw [Floor.raiseNew_unqueued e l r detail src f hk]
          rfl
        · rw [Floor.raiseNew_unqueued e l r detail src f hk]
      | some en =>
        have hg : g = f.merge l r en detail src := Floor.raise_merges e l r detail src hcarry hx
        have hc := f.merge_changedAt l r en detail src
        rw [hg]
        refine ⟨hc.flagged, hc.takesPart, hc.other, fun q hq => ?_, fun hr hs => ?_,
          fun en' hen => ?_, fun hen => ?_⟩
        · rw [hc.self, Lane.entry_withMerge, if_neg hq]
        · rw [hc.self, Lane.help_withMerge, hs, HelpSources.add_none]
        · cases hen
          refine ⟨fun _ => ?_, ?_, fun k hq hk => f.recAt_merge l r en detail src hq hk⟩
          · rw [hc.self, Lane.help_withMerge, HelpSources.add_eq]
          · rw [hc.self, Lane.entry_withMerge, if_pos rfl]
            cases detail <;> rfl
        · cases hen
  · intro x h
    refine ⟨Floor.takeOut_none cause, fun en hen => ?_⟩
    have hc := Floor.takeOut_changedAt cause hen
    refine ⟨?_, fun q hq => ?_, hc.other, hc.flagged, hc.takesPart, fun hr => ?_, fun hr => ?_,
      fun k hq hk => ?_, Floor.desk_takeOut_unqueued cause hen⟩
    · rw [hc.self, Lane.entry_without, if_pos rfl]
    · rw [hc.self, Lane.entry_without, if_neg hq]
    · rw [hc.self, hr]
      exact x.without_help
    · rw [hc.self]
      exact x.without_ne_help hr
    · have hdesk : h.desk = f.desk.endRecord k cause :=
        Floor.desk_takeOut_queued cause hen hq hk
      obtain ⟨y, hy⟩ := Desk.recAt_of_find hk
      have hslot := Desk.slot_endRecord cause hy
      rw [hdesk]
      exact ⟨rfl, congrArg QSlot.rec? hslot, congrArg QSlot.issue hslot⟩
  · refine ⟨Desk.endRecord_unnamed cause hr, fun c hs => ?_, fun c hs => ⟨fun pending old hv => ?_,
      fun hv => ?_⟩⟩
    · rw [Desk.endRecord_named cause hr hs, Desk.unofferTo_eq]
      rfl
    · rw [Desk.endRecord_unsent cause hr hs, Desk.unofferTo_saved cause hv]
      rfl
    · rw [Desk.endRecord_unsent cause hr hs, Desk.unofferTo_unsaved cause hv]
      rfl

end Sys2Proof.Machine
end

section
/-! PROOFS. The end of an event (R48, R54, R62, R63, R165): insertions, dispatch, directive words and the
arbiter's choice, each by what it leaves of the desk, the lanes and the rest. -/

namespace Sys2Proof.Machine

/-! ## The unqueued reasons and their order (R54) -/

theorem Floor.mem_unqueued (p : Params) (f : Floor) (u : Unqueued) :
    u ∈ f.unqueued p ↔ (f.lane u.lane).entry u.reason = some u.entry ∧
      u.entry.queued = false ∧ u.base = p.base[u.reason.ix] := by
  unfold Floor.unqueued
  simp only [(sortBy_perm _ _).mem_iff, List.mem_flatMap, List.mem_filterMap]
  constructor
  · rintro ⟨l, -, r, -, h⟩
    cases hen : (f.lane l).entry r with
    | none => simp [hen] at h
    | some en =>
      cases hq : en.queued with
      | true => simp [hen, hq] at h
      | false =>
        simp only [hen, hq, Bool.false_eq_true, if_false, Option.some.injEq] at h
        subst h
        exact ⟨hen, hq, rfl⟩
  · rintro ⟨hen, hq, hb⟩
    refine ⟨u.lane, List.mem_finRange _, u.reason, mem_allReasons _, ?_⟩
    simp only [hen, hq, Bool.false_eq_true, if_false, ← hb]

/-- What `before` decides between two unqueued reasons: the order of R54, ties and all. -/
def Unqueued.rank (a b : Unqueued) : Prop :=
  b.base < a.base ∨ (b.base = a.base ∧
    (a.entry.stamp < b.entry.stamp ∨ (a.entry.stamp = b.entry.stamp ∧
      (a.lane < b.lane ∨ (a.lane = b.lane ∧ a.reason.ix ≤ b.reason.ix)))))

theorem fin_lt_of_not_lt {n : Nat} {i j : Fin n} (h : ¬i < j) (hne : i ≠ j) : j < i :=
  Nat.lt_of_le_of_ne (Fin.not_lt.1 h) fun e => hne (Fin.ext e.symm)

theorem Unqueued.before_rank (a b : Unqueued) :
    (a.before b = true → a.rank b) ∧ (a.before b = false → b.rank a) := by
  unfold Unqueued.before Unqueued.rank
  by_cases h1 : a.base = b.base
  · by_cases h2 : a.entry.stamp = b.entry.stamp
    · by_cases h3 : a.lane = b.lane
      · simp only [h1, h2, h3, ne_eq, not_true_eq_false, if_false, decide_eq_true_eq,
          decide_eq_false_iff_not, true_and]
        exact ⟨fun h => .inr (.inr (.inr (Fin.le_of_lt h))),
          fun h => .inr (.inr (.inr (Fin.not_lt.1 h)))⟩
      · simp only [h1, h2, h3, ne_eq, not_true_eq_false, not_false_eq_true, if_false, if_true,
          decide_eq_true_eq, decide_eq_false_iff_not, true_and]
        exact ⟨fun h => .inr (.inr (.inl h)),
          fun h => .inr (.inr (.inl (fin_lt_of_not_lt h h3)))⟩
    · simp only [h1, h2, ne_eq, not_true_eq_false, not_false_eq_true, if_false, if_true,
        decide_eq_true_eq, decide_eq_false_iff_not, true_and]
      exact ⟨fun h => .inr (.inl h),
        fun h => .inr (.inl (BitVec.lt_of_le_ne (BitVec.not_lt.1 h) (Ne.symm h2)))⟩
  · simp only [h1, ne_eq, not_false_eq_true, if_true, decide_eq_true_eq, decide_eq_false_iff_not]
    exact ⟨.inl, fun h => .inl (fin_lt_of_not_lt h (Ne.symm h1))⟩

theorem Unqueued.rank_trans (a b c : Unqueued) (hab : a.rank b) (hbc : b.rank c) : a.rank c := by
  unfold Unqueued.rank at *
  grind

theorem Floor.unqueued_pairwise (p : Params) (f : Floor) :
    (f.unqueued p).Pairwise Unqueued.rank :=
  sortBy_pairwise (fun a b => (a.before_rank b).1) (fun a b => (a.before_rank b).2)
    Unqueued.rank_trans _

/-! ## One insertion, and the insertions owed (R54) -/

/-- The floor with the record of an unqueued reason put into a slot (R53, R54). -/
def Floor.inserted (p : Params) (u : Unqueued) (k : SlotIx) (f : Floor) : Floor :=
  { f.modLane u.lane (fun x => x.setEntry u.reason (some { u.entry with queued := true })) with
    desk := { f.desk with
      slots := upd f.desk.slots k
        { f.desk.slots[k] with rec? := some (newRecord p u.lane u.reason u.entry.stamp
            u.entry.detail (f.lane u.lane).session.isSome) }
      dispatchDue := f.desk.dispatchDue || !(f.lane u.lane).session.isSome } }

theorem Floor.insertBest_idle {p : Params} {f : Floor}
    (h : f.unqueued p = [] ∨ f.desk.freeSlot = none) : f.insertBest p = f := by
  unfold Floor.insertBest
  split
  · rfl
  · rename_i u hu
    obtain h | h := h
    · simp [h] at hu
    · rw [Desk.insert_none h]

theorem Floor.insertBest_inserts {p : Params} {f : Floor} {u : Unqueued} {rest : List Unqueued}
    {k : SlotIx} (hu : f.unqueued p = u :: rest) (hk : f.desk.freeSlot = some k) :
    f.insertBest p = f.inserted p u k := by
  simp only [Floor.insertBest, hu, List.head?_cons, Desk.insert_some hk]
  rfl

/-- What one freed slot does: nothing, or the first unqueued reason enters the lowest free slot. -/
theorem Floor.insertBest_cases (p : Params) (f : Floor) :
    f.insertBest p = f ∨ ∃ u k, u ∈ f.unqueued p ∧ f.desk.freeSlot = some k ∧
      f.insertBest p = f.inserted p u k := by
  cases hu : f.unqueued p with
  | nil => exact .inl (Floor.insertBest_idle (.inl hu))
  | cons u rest =>
    cases hk : f.desk.freeSlot with
    | none => exact .inl (Floor.insertBest_idle (.inr hk))
    | some k =>
      exact .inr ⟨u, k, List.mem_cons_self, rfl, Floor.insertBest_inserts hu hk⟩

/-- The floor with `m` insertions owed. -/
def Floor.owing (m : Nat) (f : Floor) : Floor := { f with desk := { f.desk with freedSlots := m } }

theorem Floor.insertBest_owing (p : Params) (m : Nat) (f : Floor) :
    (f.owing m).insertBest p = (f.insertBest p).owing m := by
  cases hu : f.unqueued p with
  | nil =>
    rw [Floor.insertBest_idle (.inl hu)]
    exact Floor.insertBest_idle (.inl hu)
  | cons u rest =>
    cases hk : f.desk.freeSlot with
    | none =>
      rw [Floor.insertBest_idle (.inr hk)]
      exact Floor.insertBest_idle (.inr hk)
    | some k =>
      rw [Floor.insertBest_inserts hu hk]
      exact Floor.insertBest_inserts (f := f.owing m) hu hk

theorem times_comm {α : Type} {g h : α → α} (hc : ∀ a, g (h a) = h (g a)) (n : Nat) (a : α) :
    times g n (h a) = h (times g n a) := by
  induction n generalizing a with
  | zero => rfl
  | succ n ih => exact (congrArg (times g n) (hc a)).trans (ih (g a))

theorem times_fixed {α : Type} {g : α → α} {a : α} (h : g a = a) (n : Nat) : times g n a = a :=
  times_keeps (P := (· = a)) (fun b hb => by rw [hb, h]) n a rfl

theorem Floor.insertions_idle {p : Params} {f : Floor}
    (h : f.unqueued p = [] ∨ f.desk.freeSlot = none) : f.insertions p = f.owing 0 := by
  unfold Floor.insertions
  rw [times_fixed (Floor.insertBest_idle h)]
  rfl

theorem Floor.insertions_step {p : Params} {f : Floor} {n : Nat} {u : Unqueued}
    {rest : List Unqueued} {k : SlotIx} (hn : f.desk.freedSlots = n + 1)
    (hu : f.unqueued p = u :: rest) (hk : f.desk.freeSlot = some k) :
    f.insertions p = ((f.inserted p u k).owing n).insertions p := by
  have hstep : times (Floor.insertBest p) (n + 1) f =
      times (Floor.insertBest p) n (f.inserted p u k) :=
    congrArg (times _ n) (Floor.insertBest_inserts hu hk)
  show (times (Floor.insertBest p) f.desk.freedSlots f).owing 0 =
    (times (Floor.insertBest p) n ((f.inserted p u k).owing n)).owing 0
  rw [hn, hstep, times_comm (Floor.insertBest_owing p n)]
  rfl

/-! ## What insertions leave of the lanes and the records -/

/-- An entry of a raised set but for its queued flag. -/
def Raised.content (en : Raised) : Stamp × Option Detail := (en.stamp, en.detail)

/-- The floor `g` is `f` after insertions: only queued flags, slots and what is due may differ, and no
record has gone or changed. -/
structure Floor.Inserted (f g : Floor) : Prop where
  floor : g = { f with lanes := g.lanes, desk := g.desk }
  desk : g.desk = { f.desk with
    slots := g.desk.slots, dispatchDue := g.desk.dispatchDue, freedSlots := g.desk.freedSlots }
  lane : ∀ l, g.lane l = { f.lane l with raised := (g.lane l).raised }
  content : ∀ l r, ((g.lane l).entry r).map Raised.content = ((f.lane l).entry r).map Raised.content
  issue : ∀ k : SlotIx, g.desk.slots[k].issue = f.desk.slots[k].issue
  record : ∀ k r, f.desk.recAt k = some r → g.desk.recAt k = some r

theorem Floor.Inserted.refl (f : Floor) : Floor.Inserted f f :=
  ⟨rfl, rfl, fun _ => rfl, fun _ _ => rfl, fun _ => rfl, fun _ _ h => h⟩

theorem Floor.Inserted.trans {f g h : Floor} (a : Floor.Inserted f g) (b : Floor.Inserted g h) :
    Floor.Inserted f h where
  floor := by
    rw [b.floor, a.floor]
  desk := by
    rw [b.desk, a.desk]
  lane l := by
    rw [b.lane l, a.lane l]
  content l r := (b.content l r).trans (a.content l r)
  issue k := (b.issue k).trans (a.issue k)
  record k r hr := b.record k r (a.record k r hr)

theorem Desk.recAt_freeSlot {d : Desk} {k : SlotIx} (h : d.freeSlot = some k) :
    d.recAt k = none := by
  have hp := List.find?_some h
  simpa using hp

theorem Floor.lane_inserted (p : Params) (u : Unqueued) (k : SlotIx) (f : Floor) (l : LaneIx) :
    (f.inserted p u k).lane l =
      if l = u.lane then (f.lane l).setEntry u.reason (some { u.entry with queued := true })
      else f.lane l := by
  have hlanes : (f.inserted p u k).lanes = (f.modLane u.lane (fun x =>
      x.setEntry u.reason (some { u.entry with queued := true }))).lanes := rfl
  rw [Floor.lane_congr hlanes]
  split
  · rename_i hl
    subst hl
    exact Floor.lane_modLane_self ..
  · exact Floor.lane_modLane_ne _ _ _ _ ‹_›

/-- One insertion of an unqueued reason of the floor into a free slot. -/
theorem Floor.Inserted.one {p : Params} {f : Floor} {u : Unqueued} {k : SlotIx}
    (hu : u ∈ f.unqueued p) (hk : f.desk.freeSlot = some k) :
    Floor.Inserted f (f.inserted p u k) where
  floor := rfl
  desk := rfl
  lane l := by
    rw [Floor.lane_inserted]
    split <;> rfl
  content l r := by
    obtain ⟨hen, -, -⟩ := (f.mem_unqueued p u).1 hu
    rw [Floor.lane_inserted]
    by_cases hl : l = u.lane
    · subst hl
      rw [if_pos rfl, Lane.entry_setEntry]
      by_cases hr : r = u.reason
      · subst hr
        rw [if_pos rfl, hen]
        rfl
      · rw [if_neg hr]
    · rw [if_neg hl]
  issue j := by
    by_cases hj : j = k
    · subst hj
      show ((upd f.desk.slots j _)[j]).issue = _
      rw [upd_get_self]
    · exact congrArg QSlot.issue (upd_get_ne _ _ _ _ hj)
  record j r hr := by
    have hj : j ≠ k := fun e => by
      rw [e, Desk.recAt_freeSlot hk] at hr
      cases hr
    exact (congrArg QSlot.rec? (upd_get_ne _ _ _ _ hj)).trans hr

theorem Floor.inserted_insertions (p : Params) (f : Floor) :
    Floor.Inserted f (f.insertions p) := by
  have best (g : Floor) (h : Floor.Inserted f g) : Floor.Inserted f (g.insertBest p) := by
    obtain e | ⟨u, k, hu, hk, e⟩ := g.insertBest_cases p
    · rw [e]
      exact h
    · rw [e]
      exact h.trans (.one hu hk)
  have all := times_keeps best f.desk.freedSlots f (.refl f)
  exact all.trans ⟨rfl, rfl, fun _ => rfl, fun _ _ => rfl, fun _ => rfl, fun _ _ h => h⟩

/-! ## Dispatch (R62, R63) -/

/-- A property that every step of a fold keeps, at the elements of its list, the fold keeps. -/
theorem foldl_keeps_mem {α β : Type} {P : β → Prop} {g : β → α → β} (xs : List α)
    (h : ∀ b a, a ∈ xs → P b → P (g b a)) (b : β) (hb : P b) : P (xs.foldl g b) := by
  induction xs generalizing b with
  | nil => exact hb
  | cons x xs ih =>
    exact ih (fun b a ha => h b a (List.mem_cons_of_mem x ha)) _ (h b x List.mem_cons_self hb)

/-- The desk `e` is `d` after offers: consoles may have left the free order for an offer, and records that
were WAITING may be in an unsent one. -/
structure Desk.Dispatched (d e : Desk) : Prop where
  desk : e = { d with slots := e.slots, consoles := e.consoles, freeOrder := e.freeOrder
                      dispatchDue := e.dispatchDue }
  issue : ∀ k : SlotIx, e.slots[k].issue = d.slots[k].issue
  freeOrder : ∀ c, c ∈ e.freeOrder → c ∈ d.freeOrder
  console : ∀ c, c ∉ d.freeOrder → (e.console c).state = (d.console c).state
  record : ∀ k, e.recAt k = d.recAt k ∨ ∃ r c, d.recAt k = some r ∧ r.state = .waiting ∧
    e.recAt k = some { r with state := .offered c false }

theorem Desk.Dispatched.refl (d : Desk) : Desk.Dispatched d d :=
  ⟨rfl, fun _ => rfl, fun _ h => h, fun _ _ => rfl, fun _ => .inl rfl⟩

theorem Desk.recAt_offer (d : Desk) (k j : SlotIx) (c : ConsoleIx) :
    (d.offer k c).recAt j =
      if j = k then (d.recAt k).map (fun r => { r with state := .offered c false })
      else d.recAt j :=
  Desk.recAt_modRec ..

theorem Desk.console_offer_ne (d : Desk) (k : SlotIx) {c o : ConsoleIx} (h : o ≠ c) :
    (d.offer k c).console o = d.console o :=
  upd_get_ne d.consoles c o _ h

/-- An offer of a record that was WAITING to a console of the free order. -/
theorem Desk.Dispatched.offer {d e : Desk} {k : SlotIx} {r : Record} {c : ConsoleIx}
    (h : Desk.Dispatched d e) (hr : d.recAt k = some r) (hw : r.state = .waiting)
    (hc : c ∈ e.freeOrder) : Desk.Dispatched d (e.offer k c) where
  desk := by
    rw [h.desk]
    rfl
  issue j := (Desk.issue_modRec ..).trans (h.issue j)
  freeOrder o ho := h.freeOrder o (List.mem_filter.1 ho).1
  console o ho := by
    have hne : o ≠ c := fun e => ho (e ▸ h.freeOrder c hc)
    rw [Desk.console_offer_ne e k hne, h.console o ho]
  record j := by
    rw [Desk.recAt_offer]
    by_cases hj : j = k
    · subst hj
      refine .inr ⟨r, c, hr, hw, ?_⟩
      rw [if_pos rfl]
      obtain he | ⟨r', o, hr', -, he⟩ := h.record j
      · rw [he, hr]
        rfl
      · cases hr.symm.trans hr'
        rw [he]
        rfl
    · rw [if_neg hj]
      exact h.record j

theorem Desk.dispatched_dispatch (d : Desk) (zones : Vector LaneSet 4) :
    Desk.Dispatched d (d.dispatch zones) := by
  unfold Desk.dispatch
  refine foldl_keeps_mem _ (fun e kr hkr h => ?_) _
    ⟨rfl, fun _ => rfl, fun _ h => h, fun _ _ => rfl, fun _ => .inl rfl⟩
  obtain ⟨hq, hw⟩ := List.mem_filter.1 hkr
  split
  · exact h.offer ((d.mem_queue _ _).1 hq) (by simpa using hw) (List.mem_of_find?_eq_some ‹_›)
  · exact h

theorem Desk.dispatchDue_dispatch (d : Desk) (zones : Vector LaneSet 4) :
    (d.dispatch zones).dispatchDue = false := by
  unfold Desk.dispatch
  refine foldl_same (v := Desk.dispatchDue) (fun e kr => ?_) _ _
  split <;> rfl

theorem Floor.desk_dispatchIfDue (zones : Vector LaneSet 4) (f : Floor) :
    Desk.Dispatched f.desk (f.dispatchIfDue zones).desk ∧
      (f.dispatchIfDue zones).desk.dispatchDue = false := by
  unfold Floor.dispatchIfDue
  split
  · exact ⟨f.desk.dispatched_dispatch zones, f.desk.dispatchDue_dispatch zones⟩
  · rename_i h
    exact ⟨.refl _, by simpa using h⟩

theorem Floor.dispatchIfDue_eq (zones : Vector LaneSet 4) (f : Floor) :
    f.dispatchIfDue zones = { f with desk := (f.dispatchIfDue zones).desk } := by
  unfold Floor.dispatchIfDue
  split <;> rfl

/-! ## Directive words -/

theorem Floor.deriveTouched_eq (f : Floor) :
    f.deriveTouched = { f with lanes := f.deriveTouched.lanes, touched := 0 } := by
  have fold (g : Floor) : allLanes.foldl (fun g l =>
        if hasLane f.touched l then g.modLane l (Lane.derive false) else g) g =
      { g with lanes := (allLanes.foldl (fun g l =>
        if hasLane f.touched l then g.modLane l (Lane.derive false) else g) g).lanes } :=
    foldl_keeps (P := fun h : Floor => h = { g with lanes := h.lanes })
      (fun h l e => by
        split
        · rw [e]
          rfl
        · exact e) _ _ rfl
  exact congrArg (fun h : Floor => { h with touched := 0 }) (fold f)

/-! ## The snapshot of an offer (R63) -/

/-- The desk `e` is `d` after a snapshot: no console changes its state, and a record in an unsent offer may
be in a sent one with its offer timer started. -/
structure Desk.Sent (p : Params) (d e : Desk) : Prop where
  desk : e = { d with slots := e.slots, consoles := e.consoles }
  issue : ∀ k : SlotIx, e.slots[k].issue = d.slots[k].issue
  console : ∀ c, (e.console c).state = (d.console c).state
  record : ∀ k, e.recAt k = d.recAt k ∨ ∃ r o c, d.recAt k = some r ∧
    r.state = .offered o false ∧
    e.recAt k = some { r with state := .offered c true, offer := some p.offer }

theorem Desk.Sent.refl (p : Params) (d : Desk) : Desk.Sent p d d :=
  ⟨rfl, fun _ => rfl, fun _ => rfl, fun _ => .inl rfl⟩

theorem Desk.Sent.modConsole {p : Params} {d e : Desk} (h : Desk.Sent p d e) (c : ConsoleIx)
    (g : Console → Console) (hg : ∀ x, (g x).state = x.state) :
    Desk.Sent p d (e.modConsole c g) where
  desk := by
    rw [h.desk]
    rfl
  issue := h.issue
  console o := by
    rw [Desk.console_modConsole]
    split
    · rename_i ho
      rw [hg, ← ho, h.console]
    · exact h.console o
  record := h.record

theorem Desk.Sent.modRec {p : Params} {d e : Desk} {k : SlotIx} {r : Record} {o : ConsoleIx}
    (h : Desk.Sent p d e) (he : e.recAt k = d.recAt k) (hr : d.recAt k = some r)
    (hs : r.state = .offered o false) (c : ConsoleIx) :
    Desk.Sent p d (e.modRec k (fun r =>
      { r with state := .offered c true, offer := some p.offer })) where
  desk := by
    rw [h.desk]
    rfl
  issue j := (Desk.issue_modRec ..).trans (h.issue j)
  console := h.console
  record j := by
    rw [Desk.recAt_modRec]
    by_cases hj : j = k
    · subst hj
      refine .inr ⟨r, o, c, hr, hs, ?_⟩
      rw [if_pos rfl, he, hr]
      rfl
    · rw [if_neg hj]
      exact h.record j

theorem Desk.sent_snapshotSent (d : Desk) (p : Params) (c : ConsoleIx) :
    Desk.Sent p d (d.snapshotSent p c) := by
  have base : Desk.Sent p d (d.modConsole c (fun x => { x with pending := false })) :=
    (Desk.Sent.refl p d).modConsole c _ fun _ => rfl
  unfold Desk.snapshotSent
  dsimp only
  split
  · split
    · exact (base.modRec rfl ‹_› rfl c).modConsole c _ fun _ => rfl
    · exact base
  all_goals exact base

/-! ## The choice of the arbiter (R165) -/

/-- What a choice of the arbiter can do to the floor: at most a snapshot, a LANE notice or a lane event. -/
structure Floor.Chosen (p : Params) (f g : Floor) : Prop where
  floor : g = { f with desk := g.desk, laneFlags := g.laneFlags, chans := g.chans }
  desk : Desk.Sent p f.desk g.desk
  chan : ∀ c : ChanIx, g.chans[c] =
    { f.chans[c] with credit := g.chans[c].credit, pass := g.chans[c].pass }

theorem Floor.Chosen.refl (p : Params) (f : Floor) : Floor.Chosen p f f :=
  ⟨rfl, .refl p f.desk, fun _ => rfl⟩

/-- The records of the channels after a choice differ in credit and pass count only (R166). -/
theorem takeChan_get (chans : Vector Channel 3) (c i : ChanIx) :
    (takeChan chans c)[i] =
      { chans[i] with credit := (takeChan chans c)[i].credit, pass := (takeChan chans c)[i].pass } := by
  have get : (takeChan chans c)[i] =
      if i = c then { chans[i] with credit := chans[i].credit - 1, pass := 0 }
      else if chans[i].eligible then
        { chans[i] with pass := min (chans[i].pass + 1) Config.maxPass }
      else chans[i] := by
    simp [takeChan]
  rw [get]
  split
  · rfl
  · split <;> rfl

theorem State.chosen_choose (s : State) : Floor.Chosen s.params s.floor s.choose.floor := by
  unfold State.choose
  split
  · exact .refl _ _
  · exact ⟨rfl, s.floor.desk.sent_snapshotSent _ _, fun _ => rfl⟩
  · exact .refl _ _
  · exact .refl _ _
  · exact ⟨rfl, .refl _ _, fun _ => rfl⟩
  · split
    · unfold State.sendEvent
      split
      · exact .refl _ _
      · exact ⟨rfl, .refl _ _, takeChan_get _ _⟩
    · exact .refl _ _

theorem State.chosen_arbiter (s : State) : Floor.Chosen s.params s.floor s.arbiter.floor := by
  unfold State.arbiter
  split
  · exact s.chosen_choose
  · exact .refl _ _

theorem State.link_choose (s : State) :
    s.choose.link = { s.link with tx := s.choose.link.tx } := by
  unfold State.choose
  split
  · rfl
  · rfl
  · rfl
  · rfl
  · rfl
  · split
    · unfold State.sendEvent
      split <;> rfl
    · rfl

theorem State.link_arbiter (s : State) :
    s.arbiter.link = { s.link with tx := s.arbiter.link.tx } := by
  unfold State.arbiter
  split
  · exact s.link_choose
  · rfl

/-! ## The end of an event as a whole (log 6) -/

/-- The floor at the end of an event before the directive words: insertions and dispatch. -/
def State.dispatched (s : State) : Floor :=
  (s.floor.insertions s.params).dispatchIfDue s.tables.zones

theorem State.lane_dispatched (s : State) (l : LaneIx) :
    s.dispatched.lane l = (s.floor.insertions s.params).lane l := by
  unfold State.dispatched
  rw [Floor.dispatchIfDue_eq]
  rfl

theorem State.touched_dispatched (s : State) : s.dispatched.touched = s.floor.touched := by
  unfold State.dispatched
  rw [Floor.dispatchIfDue_eq, (s.floor.inserted_insertions s.params).floor]

theorem State.chosen_finish (s : State) :
    Floor.Chosen s.params s.dispatched.deriveTouched s.finish.floor :=
  s.settle.chosen_arbiter

/-- A lane at the end of an event: derived where it took part. -/
theorem State.lane_finish (s : State) (l : LaneIx) :
    s.finish.floor.lane l =
      if hasLane s.floor.touched l = true then
        ((s.floor.insertions s.params).lane l).derive false
      else (s.floor.insertions s.params).lane l := by
  have hlanes : s.finish.floor.lanes = s.dispatched.deriveTouched.lanes := by
    rw [s.chosen_finish.floor]
  rw [Floor.lane_congr hlanes, Floor.lane_deriveTouched, s.touched_dispatched, s.lane_dispatched]

theorem State.raised_finish (s : State) (l : LaneIx) :
    (s.finish.floor.lane l).raised = ((s.floor.insertions s.params).lane l).raised := by
  rw [s.lane_finish]
  split
  · rw [Lane.derive_eq]
  · rfl

theorem State.lane_finish_eq (s : State) (l : LaneIx) :
    s.finish.floor.lane l = { s.floor.lane l with
      raised := (s.finish.floor.lane l).raised, word := (s.finish.floor.lane l).word } := by
  have hins := (s.floor.inserted_insertions s.params).lane l
  rw [s.lane_finish]
  split
  · rw [Lane.derive_eq, hins]
  · rw [hins]

theorem State.word_finish (s : State) {l : LaneIx} (h : hasLane s.floor.touched l = false) :
    (s.finish.floor.lane l).word = (s.floor.lane l).word := by
  rw [s.lane_finish, if_neg (by simp [h]), (s.floor.inserted_insertions s.params).lane l]

theorem State.entry_finish (s : State) (l : LaneIx) (r : Reason) :
    ((s.finish.floor.lane l).entry r).map Raised.content =
      ((s.floor.lane l).entry r).map Raised.content := by
  rw [← (s.floor.inserted_insertions s.params).content l r]
  unfold Lane.entry
  rw [s.raised_finish]

/-- The desk at the end of an event: insertions, then offers, then at most one snapshot. -/
theorem State.desk_finish (s : State) : ∃ d : Desk,
    Desk.Dispatched (s.floor.insertions s.params).desk d ∧ d.dispatchDue = false ∧
      Desk.Sent s.params d s.finish.floor.desk := by
  obtain ⟨hd, hdue⟩ := (s.floor.insertions s.params).desk_dispatchIfDue s.tables.zones
  have hsent := s.chosen_finish.desk
  rw [Floor.deriveTouched_eq] at hsent
  exact ⟨_, hd, hdue, hsent⟩

/-- What becomes of a record at the end of an event: WAITING it may be offered, and an unsent offer, an
earlier one or that one, may be sent (R62, R63). -/
theorem State.record_finish (s : State) {k : SlotIx} {r : Record}
    (hr : s.floor.desk.recAt k = some r) :
    s.finish.floor.desk.recAt k = some r ∨
    (r.state = .waiting ∧ ∃ c, s.finish.floor.desk.recAt k =
      some { r with state := .offered c false }) ∨
    ((r.state = .waiting ∨ ∃ o, r.state = .offered o false) ∧ ∃ c,
      s.finish.floor.desk.recAt k =
        some { r with state := .offered c true, offer := some s.params.offer }) := by
  obtain ⟨d, hd, -, hsent⟩ := s.desk_finish
  have hri := (s.floor.inserted_insertions s.params).record k r hr
  obtain hd | ⟨r', c, hr', hw, hd⟩ := hd.record k
  · rw [hri] at hd
    obtain hs | ⟨r', o, c, hr', ho, hs⟩ := hsent.record k
    · exact .inl (hs.trans hd)
    · cases hd.symm.trans hr'
      exact .inr (.inr ⟨.inr ⟨o, ho⟩, c, hs⟩)
  · cases hri.symm.trans hr'
    obtain hs | ⟨r', o, c', hr', -, hs⟩ := hsent.record k
    · exact .inr (.inl ⟨hw, c, hs.trans hd⟩)
    · cases hd.symm.trans hr'
      exact .inr (.inr ⟨.inl hw, c', hs⟩)

theorem State.record_finish_free (s : State) {k : SlotIx} (h0 : s.floor.desk.freedSlots = 0)
    (hk : s.floor.desk.recAt k = none) : s.finish.floor.desk.recAt k = none := by
  obtain ⟨d, hd, -, hsent⟩ := s.desk_finish
  rw [Floor.insertions_of_none_owed _ h0] at hd
  have hkd : d.recAt k = none := by
    obtain h | ⟨r, c, hr, -, -⟩ := hd.record k
    · exact h.trans hk
    · cases hk.symm.trans hr
  obtain h | ⟨r, o, c, hr, -, -⟩ := hsent.record k
  · exact h.trans hkd
  · cases hkd.symm.trans hr

/-- The counters of the desk (R79). -/
def Desk.counts (d : Desk) : Counter × Counter × Counter :=
  (d.unqueuedRaises, d.offerExpiries, d.claimRecalls)

theorem State.counts_finish (s : State) : s.finish.floor.desk.counts = s.floor.desk.counts := by
  obtain ⟨d, hd, -, hsent⟩ := s.desk_finish
  have hins := s.floor.inserted_insertions s.params
  rw [hsent.desk]
  show d.counts = _
  rw [hd.desk]
  show (s.floor.insertions s.params).desk.counts = _
  rw [hins.desk]
  rfl

theorem State.owed_finish (s : State) :
    s.finish.floor.desk.dispatchDue = false ∧ s.finish.floor.desk.freedSlots = 0 := by
  obtain ⟨d, hd, hdue, hsent⟩ := s.desk_finish
  exact ⟨(congrArg Desk.dispatchDue hsent.desk).trans hdue,
    (congrArg Desk.freedSlots hsent.desk).trans (congrArg Desk.freedSlots hd.desk)⟩

theorem State.issue_finish (s : State) (k : SlotIx) :
    s.finish.floor.desk.slots[k].issue = s.floor.desk.slots[k].issue := by
  obtain ⟨d, hd, -, hsent⟩ := s.desk_finish
  exact (hsent.issue k).trans
    ((hd.issue k).trans ((s.floor.inserted_insertions s.params).issue k))

/-- A console that is not in the free order is offered nothing (R62). -/
theorem State.console_finish (s : State) {c : ConsoleIx} (h : c ∉ s.floor.desk.freeOrder) :
    (s.finish.floor.desk.console c).state = (s.floor.desk.console c).state := by
  obtain ⟨d, hd, -, hsent⟩ := s.desk_finish
  have hins := (s.floor.inserted_insertions s.params).desk
  have hc : c ∉ (s.floor.insertions s.params).desk.freeOrder := by
    rw [hins]
    exact h
  rw [hsent.console c, hd.console c hc, hins]
  rfl

/-- What the end of an event leaves of the floor beside lanes and desk. -/
theorem State.floor_finish_kept (s : State) :
    s.finish.floor.free = s.floor.free ∧ s.finish.floor.presence = s.floor.presence ∧
    s.finish.floor.releasePtr = s.floor.releasePtr ∧ s.finish.floor.touched = 0 ∧
    ∀ c : ChanIx, s.finish.floor.chans[c] = { s.floor.chans[c] with
      credit := s.finish.floor.chans[c].credit, pass := s.finish.floor.chans[c].pass } := by
  have hc := s.chosen_finish
  obtain ⟨hfree, hchans, hpresence, hptr, -⟩ := Floor.of_still (Floor.still_settle s.env s.floor)
  refine ⟨(congrArg Floor.free hc.floor).trans hfree,
    (congrArg Floor.presence hc.floor).trans hpresence,
    (congrArg Floor.releasePtr hc.floor).trans hptr, congrArg Floor.touched hc.floor,
    fun c => ?_⟩
  rw [← hchans]
  exact hc.chan c

/-- A message in transmission stays, and with the link DOWN none is taken (R158, R165). -/
theorem State.tx_finish (s : State) (h : s.linkUp = false ∨ s.link.tx ≠ none) :
    s.finish.link.tx = s.link.tx := by
  have hb : s.settle.linkUp = false ∨ s.settle.link.tx ≠ none ∨ s.settle.held ≠ none :=
    h.imp_right .inl
  unfold State.finish
  rw [State.arbiter_busy hb]
  rfl

/-- Settles O54: each part of the end of an event by its stages, insertions, dispatch, directive words and
the arbiter's choice. -/
theorem endOfEventFrame : Obligations.EndOfEventFrame := by
  unfold Obligations.EndOfEventFrame
  refine ⟨fun s => ⟨rfl, rfl⟩, fun f l => ⟨f.deriveTouched_eq, rfl, rfl, fun other =>
    hasLane_addLane _ _ _⟩, fun s => ?_, fun p f => ⟨fun u => f.mem_unqueued p u,
      f.unqueued_pairwise p⟩, fun p f n => ⟨Floor.insertions_of_none_owed p,
        Floor.insertions_idle, fun u rest k hn hu hk => Floor.insertions_step hn hu hk⟩⟩
  intro t d
  obtain ⟨htables, hmap, hparams, hmgmt, hpool, htime, hprescaler, hheld, hpending⟩ :
      t.tables = s.tables ∧ t.map = s.map ∧ t.params = s.params ∧ t.mgmt = s.mgmt ∧
        t.poolEmpty = s.poolEmpty ∧ t.storeTime = s.storeTime ∧ t.prescaler = s.prescaler ∧
        t.held = s.held ∧ t.pending = s.pending := by
    simpa only [State.settings, Prod.mk.injEq] using s.settings_finish
  obtain ⟨hfree, hpresence, hptr, htouched, hchans⟩ := s.floor_finish_kept
  obtain ⟨hraises, hexpiries, hrecalls⟩ : t.floor.desk.unqueuedRaises = d.unqueuedRaises ∧
      t.floor.desk.offerExpiries = d.offerExpiries ∧
      t.floor.desk.claimRecalls = d.claimRecalls := by
    simpa only [Desk.counts, Prod.mk.injEq] using s.counts_finish
  refine ⟨htables, hparams, hmap, s.lines_finish, hmgmt, hpool, htime, hprescaler, hheld,
    hpending, s.settle.link_arbiter, fun h => s.tx_finish (.inr h), fun h => s.tx_finish (.inl h),
    hfree, hpresence, hptr, htouched, s.owed_finish.1, s.owed_finish.2, s.lane_finish_eq,
    fun l h => s.word_finish h, s.entry_finish, fun h0 l => ?_, hchans,
    fun c hc => s.console_finish hc, s.issue_finish,
    fun k h0 hk => s.record_finish_free h0 hk, fun k r hr => ?_, hexpiries, hrecalls, hraises⟩
  · rw [s.raised_finish, Floor.insertions_of_none_owed _ h0]
  · obtain hs | ⟨hw, ho⟩ | ⟨hw, hs⟩ := s.record_finish hr
    · exact ⟨fun _ => .inl hs, fun _ _ => .inl hs, fun _ => hs⟩
    · simp only [hw]
      exact ⟨fun _ => .inr (.inl ho), by simp, by simp⟩
    · refine ⟨fun _ => .inr (.inr hs), fun _ _ => .inr hs, fun hother => ?_⟩
      obtain hw | ⟨o, ho⟩ := hw
      · simp [hw] at hother
      · simp [ho] at hother

end Sys2Proof.Machine
end

section
/-! PROOFS. The reference tables as data: a bank read after one was replaced, the bank that is LOADING or
CURRENT, and the writes that keep the tables legal (R100, R101, R103, R113). -/

namespace Sys2Proof.Machine

/-! ## A bank replaced -/

@[simp] theorem Tables.bank_setBank_self (t : Tables) (bk : BankId) (x : Bank) :
    (t.setBank bk x).bank bk = x := by
  cases bk <;> rfl

@[simp] theorem Tables.bank_other_setBank (t : Tables) (bk : BankId) (x : Bank) :
    (t.setBank bk x).bank bk.other = t.bank bk.other := by
  cases bk <;> rfl

@[simp] theorem Tables.bank_setBank_other (t : Tables) (bk : BankId) (x : Bank) :
    (t.setBank bk.other x).bank bk = t.bank bk := by
  cases bk <;> rfl

@[simp] theorem Tables.setBank_bank (t : Tables) (bk : BankId) : t.setBank bk (t.bank bk) = t := by
  cases bk <;> rfl

theorem Tables.badges_setBank (t : Tables) (bk : BankId) (x : Bank) :
    (t.setBank bk x).badges = t.badges := by
  cases bk <;> rfl

/-- What holds of a bank and of the other one holds of both banks. -/
theorem BankId.forall_of_self_other {P : BankId → Prop} (bk : BankId) (h : P bk) (ho : P bk.other) :
    ∀ o, P o
  | .a => by cases bk <;> assumption
  | .b => by cases bk <;> assumption

/-! ## The LOADING bank and the CURRENT bank (R103) -/

theorem Tables.loading_eq_none_iff (t : Tables) :
    t.loading = none ↔ ∀ bk, (t.bank bk).state ≠ .loading := by
  unfold Tables.loading
  constructor
  · intro h
    split at h
    · cases h
    · split at h
      · cases h
      · exact BankId.forall_of_self_other .a ‹_› ‹_›
  · intro h
    exact (if_neg (h .a)).trans (if_neg (h .b))

theorem Tables.loading_eq_some {t : Tables} {bk : BankId} (h : (t.bank bk).state = .loading)
    (ho : (t.bank bk.other).state ≠ .loading) : t.loading = some bk := by
  cases bk with
  | a => exact if_pos h
  | b => exact (if_neg ho).trans (if_pos h)

/-- Where one bank is not CURRENT, the CURRENT bank is the other one or there is none. -/
theorem Tables.current_of_ne {t : Tables} {bk : BankId} (h : (t.bank bk).state ≠ .current) :
    t.current = if (t.bank bk.other).state = .current then some bk.other else none := by
  cases bk with
  | a => exact if_neg h
  | b =>
    by_cases ha : t.bankA.state = .current
    · exact (if_pos ha).trans (if_pos ha).symm
    · exact ((if_neg ha).trans (if_neg h)).trans (if_neg ha).symm

/-! ## Writes into a table -/

theorem findKey_eq_none_of_lt {α : Type} {k : Nat} {xs : List (Nat × α)}
    (h : ∀ p ∈ xs, k < p.1) : findKey k xs = none := by
  induction xs with
  | nil => rfl
  | cons x xs ih =>
    obtain ⟨j, a⟩ := x
    obtain ⟨hj, hxs⟩ := List.forall_mem_cons.1 h
    exact (if_neg (Nat.ne_of_gt hj)).trans (ih hxs)

/-- A write over a key that a table with rising keys holds keeps its length. -/
theorem length_putKey_of_found {α : Type} {k : Nat} (a : α) {xs : List (Nat × α)}
    (hx : risingKeys xs = true) (hk : (findKey k xs).isSome = true) :
    (putKey k a xs).length = xs.length := by
  induction xs with
  | nil => cases hk
  | cons x xs ih =>
    obtain ⟨j, b⟩ := x
    obtain ⟨hj, hxs⟩ := (risingKeys_cons j b xs).1 hx
    unfold putKey
    split
    · rename_i hkj
      have hnone : findKey k ((j, b) :: xs) = none :=
        findKey_eq_none_of_lt (List.forall_mem_cons.2 ⟨hkj, fun p hp => Nat.lt_trans hkj (hj p hp)⟩)
      simp [hnone] at hk
    · split
      · rfl
      · rename_i hne
        have hk' : (findKey k xs).isSome = true := by simpa [findKey, Ne.symm hne] using hk
        exact congrArg (· + 1) (ih hxs hk')

/-- A write keeps a bound on the length of a table, where its key is held or there is room. -/
theorem length_putKey_le {α : Type} {k n : Nat} (a : α) {xs : List (Nat × α)}
    (hx : risingKeys xs = true) (hn : xs.length ≤ n)
    (hk : (findKey k xs).isSome = true ∨ xs.length < n) : (putKey k a xs).length ≤ n := by
  obtain hk | hk := hk
  · rwa [length_putKey_of_found a hx hk]
  · exact Nat.le_trans (putKey_length k a xs) hk

/-! ## The entries of LOAD GROUPS and LOAD WATCH in order (R107, R108) -/

theorem Bank.group_writeGroup (b : Bank) (w : GroupWrite) (code : BitVec 16) :
    (b.writeGroup w).group code = if w.code = code then some (writtenGroup w) else b.group code := by
  split
  · rename_i h
    subst h
    exact findKey_putKey_self ..
  · rename_i h
    exact findKey_putKey_ne _ _ _ _ fun e => h (BitVec.eq_of_toNat_eq e.symm)

theorem Bank.foldl_writeGroup_eq (b : Bank) (es : List GroupWrite) :
    es.foldl Bank.writeGroup b = { b with groups := (es.foldl Bank.writeGroup b).groups } :=
  foldl_keeps (P := fun x : Bank => x = { b with groups := x.groups })
    (fun x w hx => by
      rw [hx]
      rfl) es b rfl

/-- Entries written from the last of a list to the first: the first one of a code stands. -/
theorem Bank.group_foldr_writeGroup (b : Bank) (es : List GroupWrite) (code : BitVec 16) :
    (es.foldr (fun w x => x.writeGroup w) b).group code =
      ((es.find? (fun e => e.code == code)).map writtenGroup).or (b.group code) := by
  induction es with
  | nil => rfl
  | cons w es ih =>
    rw [List.foldr_cons, Bank.group_writeGroup, List.find?_cons]
    by_cases h : w.code = code
    · have hw : (w.code == code) = true := beq_iff_eq.2 h
      simp only [if_pos h, hw]
      rfl
    · have hw : (w.code == code) = false := beq_eq_false_iff_ne.2 h
      simp only [if_neg h, hw]
      exact ih

/-- The group entry of a code after a LOAD GROUPS is that of the last entry written for it, or the former
one. -/
theorem Bank.group_foldl_writeGroup (b : Bank) (es : List GroupWrite) (code : BitVec 16) :
    (es.foldl Bank.writeGroup b).group code =
      ((es.reverse.find? (fun e => e.code == code)).map writtenGroup).or (b.group code) := by
  rw [← b.group_foldr_writeGroup es.reverse code, List.foldr_reverse]

/-- A watch entry written (R108). -/
def Bank.putWatch (b : Bank) (w : WatchWrite) : Bank :=
  { b with watch := putKey w.article.toNat (writtenWatch w) b.watch }

/-- A watch entry finds room: its code is in the list, or fewer than 128 entries are held (R108). -/
def Bank.hasRoom (b : Bank) (w : WatchWrite) : Prop :=
  (b.watched w.article).isSome = true ∨ b.watch.length < 128

theorem Bank.not_hasRoom_iff (b : Bank) (w : WatchWrite) :
    ¬b.hasRoom w ↔ (findKey w.article.toNat b.watch).isNone = true ∧
      Config.maxWatch ≤ b.watch.length := by
  simp [Bank.hasRoom, Bank.watched, Config.maxWatch]

theorem Bank.writeWatch_full {b : Bank} {w : WatchWrite} (ws : List WatchWrite)
    (h : ¬b.hasRoom w) : b.writeWatch (w :: ws) = (b, false) :=
  if_pos ((b.not_hasRoom_iff w).1 h)

theorem Bank.writeWatch_room {b : Bank} {w : WatchWrite} (ws : List WatchWrite)
    (h : b.hasRoom w) : b.writeWatch (w :: ws) = (b.putWatch w).writeWatch ws :=
  if_neg fun hf => (b.not_hasRoom_iff w).2 hf h

/-- The entries before the first that finds no room are written, and no other. -/
theorem Bank.writeWatch_spec (b : Bank) (es : List WatchWrite) : ∃ n, n ≤ es.length ∧
    (b.writeWatch es).1 = (es.take n).foldl Bank.putWatch b ∧
    (b.writeWatch es).2 = decide (n = es.length) ∧
    (∀ m, m < n → ∀ e, es[m]? = some e → ((es.take m).foldl Bank.putWatch b).hasRoom e) ∧
    (∀ e, es[n]? = some e → ¬(b.writeWatch es).1.hasRoom e) := by
  induction es generalizing b with
  | nil => exact ⟨0, Nat.le_refl _, rfl, rfl, fun m hm => absurd hm (Nat.not_lt_zero m), nofun⟩
  | cons w ws ih =>
    by_cases hw : b.hasRoom w
    · obtain ⟨n, hn, hbank, hdone, hroom, hfull⟩ := ih (b.putWatch w)
      rw [Bank.writeWatch_room ws hw]
      refine ⟨n + 1, Nat.succ_le_succ hn, hbank, by simpa using hdone, fun m hm e he => ?_, hfull⟩
      cases m with
      | zero =>
        cases he
        exact hw
      | succ m => exact hroom m (Nat.lt_of_succ_lt_succ hm) e he
    · rw [Bank.writeWatch_full ws hw]
      refine ⟨0, Nat.zero_le _, rfl, rfl, fun m hm => absurd hm (Nat.not_lt_zero m), fun e he => ?_⟩
      cases he
      exact hw

/-! ## Legal tables (R100, R101, R103, R113) -/

/-- The lists of a bank keep their form and their bounds. -/
def Bank.listsLegal (b : Bank) : Prop :=
  risingKeys b.groups = true ∧ risingKeys b.watch = true ∧ b.watch.length ≤ Config.maxWatch ∧
    ∀ p ∈ b.groups, p.1 ≤ 1023

/-- The badge list keeps its form and its bound. -/
def badgesLegal (badges : List (Nat × Level)) : Prop :=
  risingKeys badges = true ∧ badges.length ≤ Config.maxBadges

/-- At most one bank is in a state. -/
def Tables.atMostOne (t : Tables) (st : BankState) : Prop :=
  ¬(t.bankA.state = st ∧ t.bankB.state = st)

theorem Tables.legal_iff (t : Tables) :
    t.legal ↔ t.atMostOne .current ∧ t.atMostOne .loading ∧ (∀ bk, (t.bank bk).listsLegal) ∧
      badgesLegal t.badges := Iff.rfl

theorem Tables.atMostOne_iff (t : Tables) (st : BankState) (bk : BankId) :
    t.atMostOne st ↔ ((t.bank bk).state = st → (t.bank bk.other).state ≠ st) := by
  cases bk with
  | a => exact not_and
  | b => exact not_and'

/-- A bank replaced keeps the tables legal, where its lists are and it is neither a second CURRENT bank nor
a second LOADING one. -/
theorem Tables.legal_setBank {t : Tables} {bk : BankId} {x : Bank} (h : t.legal)
    (hx : x.listsLegal) (hc : x.state = .current → (t.bank bk.other).state ≠ .current)
    (hl : x.state = .loading → (t.bank bk.other).state ≠ .loading) : (t.setBank bk x).legal := by
  obtain ⟨-, -, hlists, hbadges⟩ := t.legal_iff.1 h
  refine (Tables.legal_iff _).2 ⟨((t.setBank bk x).atMostOne_iff _ bk).2 ?_,
    ((t.setBank bk x).atMostOne_iff _ bk).2 ?_, BankId.forall_of_self_other bk ?_ ?_, ?_⟩
  · simpa using hc
  · simpa using hl
  · simpa using hx
  · simpa using hlists bk.other
  · simpa [Tables.badges_setBank] using hbadges

/-- New lists in a bank that keeps its state keep the tables legal. -/
theorem Tables.legal_setBank_of_state_eq {t : Tables} {bk : BankId} {x : Bank} (h : t.legal)
    (hx : x.listsLegal) (hs : x.state = (t.bank bk).state) : (t.setBank bk x).legal := by
  obtain ⟨hc, hl, -, -⟩ := t.legal_iff.1 h
  refine Tables.legal_setBank h hx ?_ ?_
  · rw [hs]
    exact (t.atMostOne_iff _ bk).1 hc
  · rw [hs]
    exact (t.atMostOne_iff _ bk).1 hl

/-- A bank that enters a state other than CURRENT and LOADING keeps the tables legal. -/
theorem Tables.legal_setIdle {t : Tables} {bk : BankId} {st : BankState} (h : t.legal)
    (hc : st ≠ .current) (hl : st ≠ .loading) :
    (t.setBank bk { t.bank bk with state := st }).legal := by
  obtain ⟨-, -, hlists, -⟩ := t.legal_iff.1 h
  exact Tables.legal_setBank h (hlists bk) (fun e => absurd e hc) (fun e => absurd e hl)

theorem Tables.legal_withBadges {t : Tables} {badges : List (Nat × Level)} (h : t.legal)
    (hb : badgesLegal badges) : Tables.legal { t with badges := badges } := by
  obtain ⟨hc, hl, hlists, -⟩ := t.legal_iff.1 h
  refine (Tables.legal_iff _).2 ⟨hc, hl, BankId.forall_of_self_other .a ?_ ?_, hb⟩
  · exact hlists .a
  · exact hlists .b

theorem Tables.legal_withZones {t : Tables} {zones : Vector LaneSet 4} (h : t.legal) :
    Tables.legal { t with zones := zones } := by
  obtain ⟨hc, hl, hlists, hbadges⟩ := t.legal_iff.1 h
  refine (Tables.legal_iff _).2 ⟨hc, hl, BankId.forall_of_self_other .a ?_ ?_, hbadges⟩
  · exact hlists .a
  · exact hlists .b

theorem Bank.listsLegal_writeGroup {b : Bank} {w : GroupWrite} (h : b.listsLegal)
    (hw : w.code.toNat ≤ 1023) : (b.writeGroup w).listsLegal := by
  obtain ⟨hgroups, hwatch, hlen, hcodes⟩ := h
  refine ⟨risingKeys_putKey _ _ _ hgroups, hwatch, hlen, fun p hp => ?_⟩
  obtain hp | hp := putKey_keys _ _ _ p hp
  · rwa [hp]
  · exact hcodes p hp

theorem Bank.listsLegal_putWatch {b : Bank} {w : WatchWrite} (h : b.listsLegal)
    (hw : b.hasRoom w) : (b.putWatch w).listsLegal := by
  obtain ⟨hgroups, hwatch, hlen, hcodes⟩ := h
  exact ⟨hgroups, risingKeys_putKey _ _ _ hwatch, length_putKey_le _ hwatch hlen hw, hcodes⟩

theorem Bank.listsLegal_writeWatch {b : Bank} (es : List WatchWrite) (h : b.listsLegal) :
    (b.writeWatch es).1.listsLegal := by
  induction es generalizing b with
  | nil => exact h
  | cons w ws ih =>
    by_cases hw : b.hasRoom w
    · rw [Bank.writeWatch_room ws hw]
      exact ih (Bank.listsLegal_putWatch h hw)
    · rw [Bank.writeWatch_full ws hw]
      exact h

theorem Bank.state_writeWatch (b : Bank) (es : List WatchWrite) :
    (b.writeWatch es).1.state = b.state := by
  obtain ⟨n, -, hbank, -⟩ := b.writeWatch_spec es
  rw [hbank]
  exact foldl_same (v := Bank.state) (g := Bank.putWatch) (fun _ _ => rfl) _ b

/-! ## The end of an event -/

@[simp] theorem State.tables_arbiter (s : State) : s.arbiter.tables = s.tables :=
  congrArg Prod.fst s.settings_arbiter

@[simp] theorem State.tables_finish (s : State) : s.finish.tables = s.tables :=
  congrArg Prod.fst s.settings_finish

theorem State.mgmt_finish (s : State) : s.finish.mgmt = s.mgmt := by
  have h := s.settings_finish
  simp only [State.settings, Prod.mk.injEq] at h
  obtain ⟨-, -, -, hmgmt, -⟩ := h
  exact hmgmt

end Sys2Proof.Machine
end

section
/-! PROOFS. The load requests and COMMIT (R105 to R111). One equation for each case of what a request's execution
gives; the statements follow by `request_answers`. -/

namespace Sys2Proof.Machine

/-! ## LOAD BEGIN (R105, R106) -/

theorem State.runLoadBegin_badArgument (s : State) {bank watch : Byte} {groups : BitVec 16}
    (h : 1 < bank.toNat ∨ 1024 < groups.toNat ∨ 128 < watch.toNat) :
    s.runLoadBegin bank groups watch = s.refuse .badArgument := by
  unfold State.runLoadBegin
  obtain h | h := h
  · simp only [bankArg_bad h]
  · simp only [if_pos h]
    split <;> rfl

section
variable (s : State) {bank watch : Byte} {groups : BitVec 16} {bk : BankId}

theorem State.runLoadBegin_badState (hb : bank.toNat = bk.num) (hg : groups.toNat ≤ 1024)
    (hw : watch.toNat ≤ 128) (hc : (s.tables.bank bk).state = .current) :
    s.runLoadBegin bank groups watch = s.refuse .badState := by
  have hin : ¬(1024 < groups.toNat ∨ 128 < watch.toNat) := by omega
  simp only [State.runLoadBegin, bankArg_num hb, if_neg hin, if_pos hc]

theorem State.runLoadBegin_bankPinned (hb : bank.toNat = bk.num) (hg : groups.toNat ≤ 1024)
    (hw : watch.toNat ≤ 128) (hc : (s.tables.bank bk).state ≠ .current)
    (hp : 0 < s.floor.pinCount bk) :
    s.runLoadBegin bank groups watch = s.refuse .bankPinned := by
  have hin : ¬(1024 < groups.toNat ∨ 128 < watch.toNat) := by omega
  simp only [State.runLoadBegin, bankArg_num hb, if_neg hin, if_neg hc, if_pos hp]

/-- A load that is in progress ends in a conflict (R106). -/
theorem State.runLoadBegin_conflict {old : BankId} (hb : bank.toNat = bk.num)
    (hg : groups.toNat ≤ 1024) (hw : watch.toNat ≤ 128)
    (hc : (s.tables.bank bk).state ≠ .current) (hp : ¬0 < s.floor.pinCount bk)
    (hold : s.tables.loading = some old) :
    s.runLoadBegin bank groups watch =
      { state := s.loadConflict old, outcome := .loadConflict } := by
  have hin : ¬(1024 < groups.toNat ∨ 128 < watch.toNat) := by omega
  simp only [State.runLoadBegin, bankArg_num hb, if_neg hin, if_neg hc, if_neg hp, hold]

/-- Where no load is in progress, the bank is emptied and enters LOADING (R105). -/
theorem State.runLoadBegin_begins (hb : bank.toNat = bk.num) (hg : groups.toNat ≤ 1024)
    (hw : watch.toNat ≤ 128) (hc : (s.tables.bank bk).state ≠ .current)
    (hp : ¬0 < s.floor.pinCount bk) (hnone : s.tables.loading = none) :
    s.runLoadBegin bank groups watch =
      (s.setBank bk { state := .loading, groups := [], watch := []
                      declGroups := groups.toNat, declWatch := watch.toNat }).flagPart.done := by
  have hin : ¬(1024 < groups.toNat ∨ 128 < watch.toNat) := by omega
  simp only [State.runLoadBegin, bankArg_num hb, if_neg hin, if_neg hc, if_neg hp, hnone]

end

/-- Settles O15, by the cases of `runLoadBegin`. -/
theorem loadBegins : Obligations.LoadBegins := by
  unfold Obligations.LoadBegins
  refine fun s tag bank watch groups h => ⟨fun hbad => ?_, fun bk hb hg hw => ⟨fun hc => ?_,
    fun hc hp => ?_, fun hc h0 => ?_⟩⟩
  · exact request_refuses h (s.hunt.runLoadBegin_badArgument hbad)
  · exact request_refuses h (s.hunt.runLoadBegin_badState hb hg hw hc)
  · exact request_refuses h (s.hunt.runLoadBegin_bankPinned hb hg hw hc hp)
  · have hp : ¬0 < s.floor.pinCount bk := by omega
    refine ⟨fun old hold hother => ?_, fun hnone => ?_⟩
    · exact request_answers h
        (s.hunt.runLoadBegin_conflict hb hg hw hc hp (Tables.loading_eq_some hold hother))
    · exact request_answers h
        (s.hunt.runLoadBegin_begins hb hg hw hc hp (s.tables.loading_eq_none_iff.2 hnone))

/-! ## LOAD GROUPS (R107) -/

theorem groupsOk_iff (es : List GroupWrite) :
    groupsOk es = true ↔ (1 ≤ es.length ∧ es.length ≤ 8) ∧
      ∀ e ∈ es, e.code.toNat ≤ 1023 ∧ e.tol.toNat ≤ 250 := by
  simp [groupsOk]

theorem State.runLoadGroups_badArgument (s : State) {bank : Byte} {es : List GroupWrite}
    (h : 1 < bank.toNat ∨ es.length = 0 ∨ 8 < es.length ∨
      ∃ e ∈ es, 1023 < e.code.toNat ∨ 250 < e.tol.toNat) :
    s.runLoadGroups bank es = s.refuse .badArgument := by
  unfold State.runLoadGroups
  obtain h | h := h
  · simp only [bankArg_bad h]
  · have hok : groupsOk es = false := by
      rw [← Bool.not_eq_true, groupsOk_iff]
      rintro ⟨hlen, hall⟩
      obtain h | h | ⟨e, he, h⟩ := h
      · omega
      · omega
      · have := hall e he
        omega
    simp only [if_pos hok]
    split <;> rfl

/-- LOAD GROUPS with an acceptable content is judged by the bank's state. -/
theorem State.runLoadGroups_inRange (s : State) {bank : Byte} {es : List GroupWrite} {bk : BankId}
    (hb : bank.toNat = bk.num) (hok : groupsOk es = true) :
    s.runLoadGroups bank es =
      if (s.tables.bank bk).state ≠ .loading then s.refuse .badState
      else
        { state := s.setBank bk (es.foldl Bank.writeGroup (s.tables.bank bk)), outcome := .done
          results := writtenc (es.foldl Bank.writeGroup (s.tables.bank bk)) } := by
  have hok' : ¬groupsOk es = false := by simp [hok]
  simp only [State.runLoadGroups, bankArg_num hb, if_neg hok']

/-- Settles O16, by the cases of `runLoadGroups` and by induction on the entries from the last. -/
theorem loadGroupsWrites : Obligations.LoadGroupsWrites := by
  unfold Obligations.LoadGroupsWrites
  refine ⟨fun s tag bank es h => ⟨fun hbad => ?_, fun bk hb h1 h8 hes => ?_⟩,
    fun b es code => ⟨b.foldl_writeGroup_eq es, ?_⟩⟩
  · exact request_refuses h (s.hunt.runLoadGroups_badArgument hbad)
  · have run := s.hunt.runLoadGroups_inRange hb ((groupsOk_iff es).2 ⟨⟨h1, h8⟩, hes⟩)
    refine ⟨fun hl => request_refuses h (run.trans (if_pos hl)), fun hl => ?_⟩
    exact request_answers h (run.trans (if_neg fun hn => hn hl))
  · rw [b.group_foldl_writeGroup es code]
    cases es.reverse.find? (fun e => e.code == code) <;> rfl

/-! ## LOAD WATCH (R108) -/

theorem watchOk_iff (es : List WatchWrite) :
    watchOk es = true ↔ (1 ≤ es.length ∧ es.length ≤ 4) ∧
      ∀ e ∈ es, e.flags.getLsbD 3 = true → e.tol.toNat ≤ 250 := by
  have tol (e : WatchWrite) : (writtenOverride e).all (· ≤ 250) = true ↔
      (e.flags.getLsbD 3 = true → e.tol.toNat ≤ 250) := by
    unfold writtenOverride
    split <;> simp_all
  simp [watchOk, tol]

theorem State.runLoadWatch_badArgument (s : State) {bank : Byte} {es : List WatchWrite}
    (h : 1 < bank.toNat ∨ es.length = 0 ∨ 4 < es.length ∨
      ∃ e ∈ es, e.flags.getLsbD 3 = true ∧ 250 < e.tol.toNat) :
    s.runLoadWatch bank es = s.refuse .badArgument := by
  unfold State.runLoadWatch
  obtain h | h := h
  · simp only [bankArg_bad h]
  · have hok : watchOk es = false := by
      rw [← Bool.not_eq_true, watchOk_iff]
      rintro ⟨hlen, hall⟩
      obtain h | h | ⟨e, he, h3, h⟩ := h
      · omega
      · omega
      · have := hall e he h3
        omega
    simp only [if_pos hok]
    split <;> rfl

/-- LOAD WATCH with an acceptable content is judged by the bank's state. -/
theorem State.runLoadWatch_inRange (s : State) {bank : Byte} {es : List WatchWrite} {bk : BankId}
    (hb : bank.toNat = bk.num) (hok : watchOk es = true) :
    s.runLoadWatch bank es =
      if (s.tables.bank bk).state ≠ .loading then s.refuse .badState
      else
        { state := s.setBank bk ((s.tables.bank bk).writeWatch es).1
          outcome := if ((s.tables.bank bk).writeWatch es).2 then .done else .full
          results := writtenc ((s.tables.bank bk).writeWatch es).1 } := by
  have hok' : ¬watchOk es = false := by simp [hok]
  simp only [State.runLoadWatch, bankArg_num hb, if_neg hok']

/-- Settles O17, by the cases of `runLoadWatch` and by induction on the entries. -/
theorem loadWatchWrites : Obligations.LoadWatchWrites := by
  unfold Obligations.LoadWatchWrites
  intro put
  refine ⟨fun s tag bank es h => ⟨fun hbad => ?_, fun bk hb h1 h4 hes => ?_⟩, fun b es => ?_⟩
  · exact request_refuses h (s.hunt.runLoadWatch_badArgument hbad)
  · have run := s.hunt.runLoadWatch_inRange hb ((watchOk_iff es).2 ⟨⟨h1, h4⟩, hes⟩)
    refine ⟨fun hl => request_refuses h (run.trans (if_pos hl)), fun hl => ?_⟩
    exact request_answers h (run.trans (if_neg fun hn => hn hl))
  · obtain ⟨n, hn, hbank, hdone, hroom, hfull⟩ := b.writeWatch_spec es
    refine ⟨n, hn, hbank, hdone, hroom, fun e he => ?_⟩
    simpa [Bank.hasRoom] using hfull e he

/-! ## LOAD END (R109) and LOAD ABORT (R110) -/

theorem State.runLoadEnd_badArgument (s : State) {bank : Byte} (h : 1 < bank.toNat) :
    s.runLoadEnd bank = s.refuse .badArgument := by
  simp only [State.runLoadEnd, bankArg_bad h]

/-- LOAD END of bank A or B is judged by the bank's state, then by its counts. -/
theorem State.runLoadEnd_inRange (s : State) {bank : Byte} {bk : BankId}
    (hb : bank.toNat = bk.num) :
    s.runLoadEnd bank =
      if (s.tables.bank bk).state ≠ .loading then s.refuse .badState
      else if (s.tables.bank bk).groups.length = (s.tables.bank bk).declGroups ∧
          (s.tables.bank bk).watch.length = (s.tables.bank bk).declWatch then
        (s.setBankState bk .ready).done
      else
        { state := s.setBankState bk .invalid, outcome := .countMismatch
          results := countsc (s.tables.bank bk) } := by
  simp only [State.runLoadEnd, bankArg_num hb]

/-- Settles O18, by the cases of `runLoadEnd`. -/
theorem loadEnds : Obligations.LoadEnds := by
  unfold Obligations.LoadEnds
  refine fun s tag bank h => ⟨fun hbad => ?_, fun bk hb => ?_⟩
  · exact request_refuses h (s.hunt.runLoadEnd_badArgument hbad)
  · have run := s.hunt.runLoadEnd_inRange hb
    refine ⟨fun hl => request_refuses h (run.trans (if_pos hl)), fun hl hg hw => ?_,
      fun hl hne => ?_⟩
    · refine request_answers h ((run.trans (if_neg fun hn => hn hl)).trans ?_)
      exact if_pos ⟨hg, hw⟩
    · refine request_answers h ((run.trans (if_neg fun hn => hn hl)).trans ?_)
      exact if_neg fun ⟨hg, hw⟩ => hne.elim (· hg) (· hw)

theorem State.runLoadAbort_badArgument (s : State) {bank : Byte} (h : 1 < bank.toNat) :
    s.runLoadAbort bank = s.refuse .badArgument := by
  simp only [State.runLoadAbort, bankArg_bad h]

/-- LOAD ABORT of bank A or B is judged by the bank's state. -/
theorem State.runLoadAbort_inRange (s : State) {bank : Byte} {bk : BankId}
    (hb : bank.toNat = bk.num) :
    s.runLoadAbort bank =
      if (s.tables.bank bk).state = .loading then (s.setBankState bk .invalid).done
      else s.refuse .badState := by
  simp only [State.runLoadAbort, bankArg_num hb]

/-- A response and the end of its event change no table and no flag of a conflict. -/
theorem State.tables_conflictSeen_answer (u : State) (kind : BitVec 6) (tag : Byte) (a : Answer)
    (results : List Byte) :
    (u.answer kind tag a results).tables = u.tables ∧
      (u.answer kind tag a results).mgmt.conflictSeen = u.mgmt.conflictSeen := by
  unfold State.answer
  rw [State.tables_finish, State.mgmt_finish]
  exact ⟨rfl, rfl⟩

/-- Settles O19, by the cases of `runLoadAbort`; an answer keeps tables and flag. -/
theorem loadAborts : Obligations.LoadAborts := by
  unfold Obligations.LoadAborts
  refine fun s tag bank h => ⟨fun hbad => ?_, fun bk hb => ?_⟩
  · exact request_refuses h (s.hunt.runLoadAbort_badArgument hbad)
  · have run := s.hunt.runLoadAbort_inRange hb
    refine ⟨fun hl => ?_, fun hl => ?_⟩
    · have hexec := request_answers (kind := 8) (tag := tag) (results := [])
        (u := s.setBankState bk .invalid) h (run.trans (if_pos hl))
      exact ⟨hexec, _, hexec, State.tables_conflictSeen_answer _ _ _ _ _⟩
    · have hexec := request_refuses (kind := 8) (tag := tag) h (run.trans (if_neg hl))
      exact ⟨hexec, _, hexec, State.tables_conflictSeen_answer _ _ _ _ _⟩

/-! ## COMMIT (R111) -/

theorem State.runCommit_badArgument (s : State) {bank : Byte} (h : 1 < bank.toNat) :
    s.runCommit bank = s.refuse .badArgument := by
  simp only [State.runCommit, bankArg_bad h]

/-- The tables after a commit: the other bank is READY where it was CURRENT, and the bank is CURRENT. -/
def Tables.commit (t : Tables) (bk : BankId) : Tables :=
  let other := t.bank bk.other
  (t.setBank bk.other { other with
    state := if other.state = .current then .ready else other.state }).setBank bk
      { t.bank bk with state := .current }

theorem Tables.commit_replaces {t : Tables} {bk : BankId}
    (h : (t.bank bk.other).state = .current) :
    t.commit bk = (t.setBank bk.other { t.bank bk.other with state := .ready }).setBank bk
      { t.bank bk with state := .current } := by
  simp only [Tables.commit, if_pos h]

theorem Tables.commit_alone {t : Tables} {bk : BankId}
    (h : (t.bank bk.other).state ≠ .current) :
    t.commit bk = t.setBank bk { t.bank bk with state := .current } := by
  simp only [Tables.commit, if_neg h]
  exact congrArg (Tables.setBank · bk _) (t.setBank_bank bk.other)

/-- COMMIT of bank A or B is judged by the bank's state. -/
theorem State.runCommit_inRange (s : State) {bank : Byte} {bk : BankId}
    (hb : bank.toNat = bk.num) :
    s.runCommit bank =
      if (s.tables.bank bk).state = .ready then
        State.done { s with tables := s.tables.commit bk
                            notices := { s.notices with part := true } }
      else s.refuse .badState := by
  simp only [State.runCommit, bankArg_num hb]
  split
  · rename_i hr
    have hcurrent := Tables.current_of_ne (t := s.tables) (bk := bk) (by simp [hr])
    by_cases ho : (s.tables.bank bk.other).state = .current
    · simp [hcurrent, ho, Tables.commit_replaces ho, State.setBankState, State.setBank,
        State.flagPart]
    · simp [hcurrent, ho, Tables.commit_alone ho, State.setBankState, State.setBank,
        State.flagPart]
  · rfl

/-- Settles O20, by the cases of `runCommit`. -/
theorem commits : Obligations.Commits := by
  unfold Obligations.Commits
  refine fun s tag bank h => ⟨fun hbad => ?_, fun bk hb => ⟨fun hr => ?_, fun hr => ?_⟩⟩
  · exact request_refuses h (s.hunt.runCommit_badArgument hbad)
  · exact request_refuses h ((s.hunt.runCommit_inRange hb).trans (if_neg hr))
  · exact request_answers h ((s.hunt.runCommit_inRange hb).trans (if_pos hr))

end Sys2Proof.Machine
end

section
/-! PROOFS. The badge requests (R88, R113 to R115). One equation for each case of what a request's execution
gives; the statements follow by `request_answers`. -/

namespace Sys2Proof.Machine

/-! ## The open sessions of a badge (R88) -/

theorem Floor.closeSessions_heldBy (p : Params) (badge : BadgeNo) (f : Floor) :
    f.closeSessions p (fun f l => f.heldBy badge l) =
      allLanes.foldl (fun f l =>
        if (f.lane l).session.any (fun se => se.badge == badge) then f.closeSession p l else f) f :=
  rfl

theorem Floor.closeSessions_isSome (p : Params) (f : Floor) :
    f.closeSessions p (fun f l => (f.lane l).session.isSome) =
      allLanes.foldl (fun f l =>
        if (f.lane l).session.isSome then f.closeSession p l else f) f := rfl

theorem Floor.raiseLevel_eq (badge : BadgeNo) (lv : Level) (f : Floor) :
    f.raiseLevel badge lv =
      allLanes.foldl (fun f l =>
        if (f.lane l).session.any (fun se => se.badge == badge) then
          f.modLane l (fun x => { x with session := x.session.map (fun se => { se with level := lv }) })
        else f) f := rfl

/-! ## BADGE SET (R88, R114) -/

section
variable (s : State) {badge : BadgeNo} {level : Byte} {lv : Level}

theorem State.runBadgeSet_badArgument (h : level.toNat = 0 ∨ 2 < level.toNat) :
    s.runBadgeSet badge level = s.refuse .badArgument := by
  simp only [State.runBadgeSet, levelArg_bad h]

/-- A badge that is not in the list is added where fewer than 64 are held. -/
theorem State.runBadgeSet_new (hl : level.toNat = lv.code) (hn : s.tables.level badge = none) :
    s.runBadgeSet badge level =
      if s.tables.badges.length < Config.maxBadges then (s.putBadge badge lv).done
      else s.refuse .full := by
  simp only [State.runBadgeSet, levelArg_num hl, hn]

theorem State.runBadgeSet_same (hl : level.toNat = lv.code) (hs : s.tables.level badge = some lv) :
    s.runBadgeSet badge level = s.done := by
  simp only [State.runBadgeSet, levelArg_num hl, hs, if_true]

theorem State.runBadgeSet_lowers (hl : level.toNat = Level.one.code)
    (hs : s.tables.level badge = some .two) :
    s.runBadgeSet badge level = ((s.putBadge badge .one).onFloor
      (Floor.closeSessions s.params (fun f l => f.heldBy badge l))).done := by
  simp only [State.runBadgeSet, levelArg_num hl, hs]
  rfl

theorem State.runBadgeSet_raises (hl : level.toNat = Level.two.code)
    (hs : s.tables.level badge = some .one) :
    s.runBadgeSet badge level =
      ((s.putBadge badge .two).onFloor (Floor.raiseLevel badge .two)).done := by
  simp only [State.runBadgeSet, levelArg_num hl, hs]
  rfl

end

/-- Settles O21, by the cases of `runBadgeSet`. -/
theorem badgeSets : Obligations.BadgeSets := by
  unfold Obligations.BadgeSets
  refine fun s tag level badge h => ⟨fun hbad => ?_, fun lv hl => ⟨fun hn hfull => ?_,
    fun hn hroom => ?_, fun hs => ?_, fun hs hlv => ?_, fun hs hlv => ?_⟩⟩
  · exact request_refuses h (s.hunt.runBadgeSet_badArgument hbad)
  · exact request_refuses h ((s.hunt.runBadgeSet_new hl hn).trans (if_neg (Nat.not_lt.2 hfull)))
  · exact request_answers h ((s.hunt.runBadgeSet_new hl hn).trans (if_pos hroom))
  · exact request_answers h (s.hunt.runBadgeSet_same hl hs)
  · subst hlv
    refine request_answers h ((s.hunt.runBadgeSet_lowers hl hs).trans ?_)
    rw [State.onFloor, State.putBadge_floor, State.hunt_floor, State.hunt_params,
      Floor.closeSessions_heldBy]
    generalize List.foldl _ _ _ = f
    rfl
  · subst hlv
    refine request_answers h ((s.hunt.runBadgeSet_raises hl hs).trans ?_)
    rw [State.onFloor, State.putBadge_floor, State.hunt_floor, Floor.raiseLevel_eq]
    generalize List.foldl _ _ _ = f
    rfl

/-! ## BADGE CLEAR (R88, R115) -/

/-- The state with the badge list replaced. -/
def State.withBadges (s : State) (badges : List (Nat × Level)) : State :=
  { s with tables := { s.tables with badges := badges } }

theorem State.withBadges_floor (s : State) (badges : List (Nat × Level)) :
    (s.withBadges badges).floor = s.floor := rfl

section
variable (s : State) {badge : BadgeNo} {mode : Byte}

theorem State.runBadgeClear_badArgument (h : 2 ≤ mode.toNat) :
    s.runBadgeClear mode badge = s.refuse .badArgument := by
  unfold State.runBadgeClear
  split
  · omega
  · omega
  · rfl

theorem State.runBadgeClear_notFound (hm : mode.toNat = 0) (hn : s.tables.level badge = none) :
    s.runBadgeClear mode badge = s.refuse .notFound := by
  simp only [State.runBadgeClear, hm, hn]

theorem State.runBadgeClear_listed (hm : mode.toNat = 0)
    (hs : (s.tables.level badge).isSome = true) :
    s.runBadgeClear mode badge =
      ((s.withBadges (dropKey badge.toNat s.tables.badges)).onFloor
        (Floor.closeSessions s.params (fun f l => f.heldBy badge l))).done := by
  obtain ⟨lv, hlv⟩ := Option.isSome_iff_exists.1 hs
  rw [State.runBadgeClear, hm]
  simp only [hlv]
  rfl

theorem State.runBadgeClear_all (hm : mode.toNat = 1) :
    s.runBadgeClear mode badge =
      ((s.withBadges []).onFloor
        (Floor.closeSessions s.params (fun f l => (f.lane l).session.isSome))).done := by
  rw [State.runBadgeClear, hm]
  rfl

end

/-- Settles O22, by the cases of `runBadgeClear`. -/
theorem badgeClears : Obligations.BadgeClears := by
  unfold Obligations.BadgeClears
  refine fun s tag mode badge h => ⟨fun hbad => ?_, fun hm hn => ?_, fun hm hs => ?_, ?_⟩
  · exact request_refuses h (s.hunt.runBadgeClear_badArgument hbad)
  · exact request_refuses h (s.hunt.runBadgeClear_notFound (congrArg BitVec.toNat hm) hn)
  · refine request_answers h
      ((s.hunt.runBadgeClear_listed (congrArg BitVec.toNat hm) hs).trans ?_)
    rw [State.onFloor, State.withBadges_floor, State.hunt_floor, State.hunt_params,
      Floor.closeSessions_heldBy]
    generalize List.foldl _ _ _ = f
    rfl
  · refine request_answers h ((s.hunt.runBadgeClear_all rfl).trans ?_)
    rw [State.onFloor, State.withBadges_floor, State.hunt_floor, State.hunt_params,
      Floor.closeSessions_isSome]
    generalize List.foldl _ _ _ = f
    rfl

end Sys2Proof.Machine
end

section
/-! PROOFS. The four invariants at reset (R100, R103, R152, R161, R164, R166). -/

namespace Sys2Proof.Machine

theorem State.reset_tables_legal : State.reset.tables.legal := by
  have empty : Bank.listsLegal {} := ⟨rfl, rfl, Nat.zero_le _, nofun⟩
  exact (Tables.legal_iff _).2 ⟨nofun, nofun, BankId.forall_of_self_other .a empty empty,
    rfl, Nat.zero_le _⟩

theorem State.reset_chan (c : ChanIx) : State.reset.floor.chans[c] = {} :=
  Vector.getElem_replicate _

theorem Channel.legal_reset : Channel.legal {} :=
  ⟨Nat.zero_le _, Nat.zero_le _, Nat.zero_le _, fun _ => ⟨rfl, rfl⟩⟩

theorem State.reset_lane (l : LaneIx) : State.reset.floor.lane l = {} :=
  Vector.getElem_replicate _

theorem Lane.legal_reset : Lane.legal {} :=
  ⟨fun _ => ⟨rfl, rfl, rfl, rfl⟩, fun _ => rfl, Nat.zero_le _, Nat.zero_le _, Nat.zero_le _,
    Nat.zero_le _, rfl, rfl, fun _ => rfl⟩

theorem State.reset_line (n : LineIx) : State.reset.line n = {} :=
  Vector.getElem_replicate _

/-- At reset every buffer is on the free list, and nowhere else. -/
theorem State.reset_places : State.reset.places = List.finRange 64 := by
  have hfree : State.reset.floor.free = List.finRange 64 := rfl
  have hslots : allLines.filterMap (fun n => (State.reset.line n).slot) = [] := by
    simp [State.reset_line]
  have hdeferred :
      allLanes.flatMap (fun l => (State.reset.floor.lane l).deferred.map (·.buf)) = [] := by
    simp [State.reset_lane]
  have hqueues :
      allChans.flatMap (fun c => State.reset.floor.chans[c].queue.map (·.frame.buf)) = [] := by
    refine List.flatMap_eq_nil_iff.2 fun c _ => ?_
    rw [State.reset_chan]
    rfl
  rw [State.places, hfree, hslots, hdeferred, hqueues]
  simp only [List.append_nil]

/-- Settles O55, field by field of the reset values. -/
theorem invariantsHoldAtReset : Obligations.InvariantsHoldAtReset := by
  unfold Obligations.InvariantsHoldAtReset
  refine ⟨State.reset_tables_legal, fun c => ?_, fun l => ?_, fun b => ?_⟩
  · rw [State.reset_chan]
    exact Channel.legal_reset
  · rw [State.reset_lane]
    exact Lane.legal_reset
  · rw [State.reset_places]
    rw [(List.nodup_finRange 64).count, if_pos (List.mem_finRange b)]

end Sys2Proof.Machine
end

section
/-! PROOFS. Every step keeps the tables legal (R100, R101, R103, R105, R111, R113): the operations that change no
table, the table requests one by one, and the part reset. -/

namespace Sys2Proof.Machine

/-! ## Operations that change no table -/

@[simp] theorem State.tables_startTurn (s : State) (n : LineIx) (d : DropIx) :
    (s.startTurn n d).tables = s.tables := by
  obtain ⟨hclaim, -⟩ := s.claim_settings n
  unfold State.startTurn
  dsimp only
  split
  · exact hclaim
  · exact hclaim

@[simp] theorem State.tables_rotate (n : LineIx) (k : Nat) (s : State) :
    (State.rotate n k s).tables = s.tables := by
  induction k generalizing s with
  | zero => rfl
  | succ k ih =>
    unfold State.rotate
    dsimp only
    split
    · exact State.tables_startTurn _ n _
    · split
      · rfl
      · exact ih _

theorem State.tables_attend {s t : State} {n : LineIx} {k : Nat} (h : s.attend n k = some t) :
    t.tables = s.tables := by
  unfold State.attend at h
  split at h
  · cases h
  · cases h
    exact State.tables_startTurn _ n _

@[simp] theorem State.tables_enterQuiet (s : State) (n : LineIx) :
    (s.enterQuiet n).tables = s.tables := by
  unfold State.enterQuiet
  dsimp only
  split <;> rfl

/-- An attention round changes no table, where what follows it when no drop is left changes none. -/
theorem State.tables_attend_getD {s t : State} {n : LineIx} {k : Nat} (h : t.tables = s.tables) :
    ((s.attend n k).getD t).tables = s.tables := by
  cases ha : s.attend n k with
  | none => exact h
  | some u => exact State.tables_attend ha

@[simp] theorem State.tables_nextTurn (s : State) (n : LineIx) :
    (s.nextTurn n).tables = s.tables := by
  have resume (t : State) :
      (if (s.line n).idleWait then t else t.rotate n rotationSpan).tables = t.tables := by
    split
    · rfl
    · exact State.tables_rotate n _ t
  unfold State.nextTurn
  dsimp only
  split
  · exact s.tables_enterQuiet n
  · split
    · exact resume s
    · exact State.tables_attend_getD (resume _)
    · exact State.tables_attend_getD (resume _)

@[simp] theorem State.tables_beginLines (s : State) : s.beginLines.tables = s.tables :=
  foldl_same (v := State.tables) (fun t n => t.tables_nextTurn n) allLines s

@[simp] theorem State.tables_prepareLine (s : State) (n : LineIx) :
    (s.prepareLine n).tables = s.tables :=
  foldl_same (v := State.tables) (fun t d => by dsimp only; split <;> rfl) allDrops s

@[simp] theorem State.tables_judgeDrop (s : State) (n : LineIx) (d : DropIx) (o : TurnEnd) :
    (s.judgeDrop n d o).tables = s.tables := by
  unfold State.judgeDrop
  dsimp only
  split <;> rfl

@[simp] theorem State.tables_takeAnswer (s : State) (n : LineIx) (u : Turn) (a : GoodAnswer) :
    (s.takeAnswer n u a).tables = s.tables := by
  unfold State.takeAnswer
  dsimp only
  split
  · rfl
  · split <;> rfl

@[simp] theorem State.tables_endTurn (s : State) (n : LineIx) : (s.endTurn n).tables = s.tables := by
  simp [State.endTurn]

@[simp] theorem State.tables_endDamaged (s : State) (n : LineIx) (d : DropIx) :
    (s.endDamaged n d).tables = s.tables := by
  simp [State.endDamaged]

@[simp] theorem State.tables_breakActive (s : State) (n : LineIx) :
    (s.breakActive n).tables = s.tables := by
  unfold State.breakActive
  split
  · split
    · rfl
    · simp
    · simp
  · simp

@[simp] theorem State.tables_loseRequest (s : State) : s.loseRequest.tables = s.tables := by
  unfold State.loseRequest
  dsimp only
  split <;> rfl

@[simp] theorem State.tables_cutShort (s : State) (m : TxMessage) :
    (s.cutShort m).tables = s.tables := by
  unfold State.cutShort
  split
  case h_6 => split <;> rfl
  all_goals rfl

@[simp] theorem State.tables_goDown (s : State) : s.goDown.tables = s.tables := by
  unfold State.goDown
  dsimp only
  rw [State.onDesk_tables]
  split
  · split <;> exact s.tables_cutShort _
  · split <;> rfl

@[simp] theorem State.tables_eventSent (s : State) (c : ChanIx) :
    (s.eventSent c).tables = s.tables := by
  unfold State.eventSent
  split <;> simp

/-! ## Requests that change no table -/

@[simp] theorem State.state_refuse (s : State) (a : Answer) : (s.refuse a).state = s := rfl
@[simp] theorem State.state_done (s : State) : s.done.state = s := rfl

theorem State.tables_withRecord {s : State} {console slot issue : Byte}
    {run : ConsoleIx → SlotIx → Record → Executed}
    (h : ∀ c k r, (run c k r).state.tables = s.tables) :
    (s.withRecord console slot issue run).state.tables = s.tables := by
  unfold State.withRecord
  split
  · split
    · exact h _ _ _
    · rfl
  · rfl

theorem State.tables_answerRead (s : State) (results : Option (List Byte)) :
    (s.answerRead results).state.tables = s.tables := by
  cases results <;> rfl

theorem State.tables_runCredit (channel count : Byte) (s : State) :
    (s.runCredit channel count).state.tables = s.tables := by
  unfold State.runCredit
  split
  · rfl
  · split
    · rfl
    · split
      · rfl
      · dsimp only [State.done]
        split <;> rfl

theorem State.tables_disableChannel (s : State) (c : ChanIx) :
    (s.disableChannel c).tables = s.tables := by
  unfold State.disableChannel
  simp only [State.onFloor_tables, State.flagPart_tables]

theorem State.tables_runChannelSet (channel enable : Byte) (s : State) :
    (s.runChannelSet channel enable).state.tables = s.tables := by
  unfold State.runChannelSet
  split
  · split
    · rfl
    · rfl
    · rfl
    · rfl
    · exact s.tables_disableChannel _
    · exact s.tables_disableChannel _
  · rfl

theorem State.tables_runMapSet (kind channel : Byte) (s : State) :
    (s.runMapSet kind channel).state.tables = s.tables := by
  unfold State.runMapSet
  split
  · exact State.onFloor_tables _ _
  · rfl

theorem State.tables_runLaneOpen (lane : Byte) (s : State) :
    (s.runLaneOpen lane).state.tables = s.tables := by
  unfold State.runLaneOpen
  split
  · rfl
  · split
    · split <;> rfl
    all_goals rfl

theorem State.tables_runLaneClose (lane force : Byte) (s : State) :
    (s.runLaneClose lane force).state.tables = s.tables := by
  unfold State.runLaneClose
  split <;> rfl

theorem State.tables_runLaneReset (lane : Byte) (s : State) :
    (s.runLaneReset lane).state.tables = s.tables := by
  unfold State.runLaneReset
  split <;> rfl

theorem State.tables_runInputSet (lane enable edge : Byte) (s : State) :
    (s.runInputSet lane enable edge).state.tables = s.tables := by
  unfold State.runInputSet
  split <;> rfl

theorem State.tables_runLineQuiet (line : Byte) (s : State) :
    (s.runLineQuiet line).state.tables = s.tables := by
  unfold State.runLineQuiet
  split
  · rfl
  · dsimp only
    split
    · rfl
    · rfl
    · split
      · rfl
      · split
        · rfl
        · split
          · exact s.tables_enterQuiet _
          · rfl

theorem State.tables_runLineWake (line : Byte) (s : State) :
    (s.runLineWake line).state.tables = s.tables := by
  unfold State.runLineWake
  split <;> rfl

theorem State.tables_runConsoleOn (console : Byte) (s : State) :
    (s.runConsoleOn console).state.tables = s.tables := by
  unfold State.runConsoleOn
  split
  · rfl
  · split <;> simp

theorem State.tables_runConsoleOff (console : Byte) (s : State) :
    (s.runConsoleOff console).state.tables = s.tables := by
  unfold State.runConsoleOff
  split
  · rfl
  · split <;> simp

theorem State.tables_runClaim (console slot issue : Byte) (s : State) :
    (s.runClaim console slot issue).state.tables = s.tables :=
  State.tables_withRecord fun c k r => by
    split
    case h_3 | h_4 => split <;> rfl
    all_goals rfl

theorem State.tables_runDecline (console slot issue : Byte) (s : State) :
    (s.runDecline console slot issue).state.tables = s.tables :=
  State.tables_withRecord fun c k r => by
    split
    case h_1 => split <;> rfl
    all_goals rfl

theorem State.tables_runRelease (console slot issue : Byte) (s : State) :
    (s.runRelease console slot issue).state.tables = s.tables :=
  State.tables_withRecord fun c k r => by
    split <;> rfl

theorem State.tables_runResolve (console slot issue action : Byte) (s : State) :
    (s.runResolve console slot issue action).state.tables = s.tables := by
  unfold State.runResolve
  split
  · rfl
  · refine State.tables_withRecord fun c k r => ?_
    split
    · rfl
    · split
      · rfl
      · split
        · rfl
        · split <;> rfl

theorem State.tables_clearCounters (s : State) (g : CounterGroup) :
    (s.clearCounters g).tables = s.tables := by
  cases g <;> rfl

theorem State.tables_runReadCounters (group clear : Byte) (s : State) :
    (s.runReadCounters group clear).state.tables = s.tables := by
  unfold State.runReadCounters
  split
  · dsimp only
    split
    · exact s.tables_clearCounters _
    · rfl
  · rfl

theorem State.tables_runSetParam (param : Byte) (value : BitVec 24) (s : State) :
    (s.runSetParam param value).state.tables = s.tables := by
  unfold State.runSetParam
  split <;> rfl

/-! ## The table requests -/

theorem bankArg_eq_some {b : Byte} {bk : BankId} (h : bankArg b = some bk) : b.toNat = bk.num := by
  unfold bankArg at h
  split at h <;> cases h
  · assumption
  · assumption

/-- A conflict only takes a bank out of LOADING, and a load begins only where none is in progress. -/
theorem State.legal_runLoadBegin (bank watch : Byte) (groups : BitVec 16) {s : State}
    (h : s.tables.legal) : (s.runLoadBegin bank groups watch).state.tables.legal := by
  unfold State.runLoadBegin
  split
  · exact h
  · split
    · exact h
    · split
      · exact h
      · split
        · exact h
        · split
          · exact Tables.legal_setIdle h nofun nofun
          · rename_i hnone
            refine Tables.legal_setBank h ⟨rfl, rfl, Nat.zero_le _, nofun⟩ nofun fun _ => ?_
            exact s.tables.loading_eq_none_iff.1 hnone _

theorem State.legal_runLoadGroups (bank : Byte) (es : List GroupWrite) {s : State}
    (h : s.tables.legal) : (s.runLoadGroups bank es).state.tables.legal := by
  unfold State.runLoadGroups
  split
  · exact h
  · rename_i bk _
    split
    · exact h
    · rename_i hok
      obtain ⟨-, hes⟩ := (groupsOk_iff es).1 (by simpa using hok)
      obtain ⟨-, -, hlists, -⟩ := s.tables.legal_iff.1 h
      split
      · exact h
      · refine Tables.legal_setBank_of_state_eq h ?_ ?_
        · exact List.foldlRecOn es Bank.writeGroup (hlists bk) fun b hb w hw =>
            Bank.listsLegal_writeGroup hb (hes w hw).1
        · rw [Bank.foldl_writeGroup_eq]

theorem State.legal_runLoadWatch (bank : Byte) (es : List WatchWrite) {s : State}
    (h : s.tables.legal) : (s.runLoadWatch bank es).state.tables.legal := by
  unfold State.runLoadWatch
  split
  · exact h
  · rename_i bk _
    obtain ⟨-, -, hlists, -⟩ := s.tables.legal_iff.1 h
    split
    · exact h
    · split
      · exact h
      · exact Tables.legal_setBank_of_state_eq h (Bank.listsLegal_writeWatch es (hlists bk))
          (Bank.state_writeWatch _ es)

theorem State.legal_runLoadEnd (bank : Byte) {s : State} (h : s.tables.legal) :
    (s.runLoadEnd bank).state.tables.legal := by
  unfold State.runLoadEnd
  split
  · exact h
  · dsimp only
    split
    · exact h
    · split
      · exact Tables.legal_setIdle h nofun nofun
      · exact Tables.legal_setIdle h nofun nofun

theorem State.legal_runLoadAbort (bank : Byte) {s : State} (h : s.tables.legal) :
    (s.runLoadAbort bank).state.tables.legal := by
  unfold State.runLoadAbort
  split
  · exact h
  · split
    · exact Tables.legal_setIdle h nofun nofun
    · exact h

/-- A commit leaves its bank alone CURRENT. -/
theorem Tables.legal_commit {t : Tables} (bk : BankId) (h : t.legal) : (t.commit bk).legal := by
  obtain ⟨-, -, hlists, -⟩ := t.legal_iff.1 h
  by_cases ho : (t.bank bk.other).state = .current
  · rw [Tables.commit_replaces ho]
    exact Tables.legal_setBank (Tables.legal_setIdle h nofun nofun) (hlists bk)
      (fun _ => by simp) nofun
  · rw [Tables.commit_alone ho]
    exact Tables.legal_setBank h (hlists bk) (fun _ => ho) nofun

theorem State.legal_runCommit (bank : Byte) {s : State} (h : s.tables.legal) :
    (s.runCommit bank).state.tables.legal := by
  cases hb : bankArg bank with
  | none =>
    simp only [State.runCommit, hb]
    exact h
  | some bk =>
    rw [State.runCommit_inRange s (bankArg_eq_some hb)]
    split
    · exact Tables.legal_commit bk h
    · exact h

theorem State.legal_putBadge {s : State} {badge : BadgeNo} (lv : Level) (h : s.tables.legal)
    (hroom : (s.tables.level badge).isSome = true ∨ s.tables.badges.length < Config.maxBadges) :
    (s.putBadge badge lv).tables.legal := by
  obtain ⟨-, -, -, hrising, hlen⟩ := s.tables.legal_iff.1 h
  exact Tables.legal_withBadges h
    ⟨risingKeys_putKey _ _ _ hrising, length_putKey_le lv hrising hlen hroom⟩

theorem State.legal_runBadgeSet (badge : BadgeNo) (level : Byte) {s : State}
    (h : s.tables.legal) : (s.runBadgeSet badge level).state.tables.legal := by
  unfold State.runBadgeSet
  split
  · exact h
  · rename_i lv _
    split
    · rename_i old hold
      have hroom : (s.tables.level badge).isSome = true := by simp [hold]
      split
      · exact h
      · split
        · rw [State.state_done, State.onFloor_tables]
          exact State.legal_putBadge lv h (.inl hroom)
        · rw [State.state_done, State.onFloor_tables]
          exact State.legal_putBadge lv h (.inl hroom)
    · split
      · exact State.legal_putBadge lv h (.inr ‹_›)
      · exact h

theorem State.legal_runBadgeClear (mode : Byte) (badge : BadgeNo) {s : State}
    (h : s.tables.legal) : (s.runBadgeClear mode badge).state.tables.legal := by
  obtain ⟨-, -, -, hrising, hlen⟩ := s.tables.legal_iff.1 h
  unfold State.runBadgeClear
  split
  · split
    · exact h
    · exact Tables.legal_withBadges h
        ⟨risingKeys_dropKey _ _ hrising, Nat.le_trans (List.length_filter_le _ _) hlen⟩
  · exact Tables.legal_withBadges h ⟨rfl, Nat.zero_le _⟩
  · exact h

theorem State.legal_runZoneSet (console : Byte) (lanes : LaneSet) {s : State}
    (h : s.tables.legal) : (s.runZoneSet console lanes).state.tables.legal := by
  unfold State.runZoneSet
  split
  · exact h
  · exact Tables.legal_withZones h

/-! ## The part reset (R117) -/

theorem Bank.afterReset_state (b : Bank) :
    b.afterReset.state ≠ .current ∧ b.afterReset.state ≠ .loading := by
  obtain ⟨st⟩ := b
  cases st <;> exact ⟨nofun, nofun⟩

/-- After a part reset no bank is CURRENT and none LOADING, and the contents are as before. -/
theorem State.legal_resetValues {s : State} (cause : ResetCause) (h : s.tables.legal) :
    (s.resetValues cause).tables.legal := by
  obtain ⟨-, -, hlists, hbadges⟩ := s.tables.legal_iff.1 h
  obtain ⟨hc, hl⟩ := s.tables.bankA.afterReset_state
  exact (Tables.legal_iff _).2 ⟨fun e => hc e.1, fun e => hl e.1,
    BankId.forall_of_self_other .a (hlists .a) (hlists .b), hbadges⟩

theorem State.legal_partReset {s : State} (cause : ResetCause) (h : s.tables.legal) :
    (s.partReset cause).tables.legal := by
  unfold State.partReset
  rw [State.tables_arbiter, State.tables_beginLines]
  exact State.legal_resetValues cause h

theorem State.legal_responseSent {s : State} (h : s.tables.legal) :
    s.responseSent.tables.legal := by
  unfold State.responseSent
  dsimp only
  split
  · exact State.legal_partReset _ h
  · rw [State.tables_finish]
    exact h

/-! ## Outcomes whose next state has legal tables -/

/-- The next state of an outcome, where it has one, has legal tables. -/
def NextLegal (o : Host.Outcome State Fault Refusal) : Prop := ∀ t, o = .next t → t.tables.legal

theorem nextLegal_next {t : State} (h : t.tables.legal) : NextLegal (.next t) := by
  rintro _ ⟨⟩
  exact h

section
variable {s : State} (h : s.tables.legal)
include h

theorem nextLegal_whenRunning {f : State → State} (hf : (f s).tables.legal) :
    NextLegal (whenRunning s f) := by
  refine nextLegal_next ?_
  split
  · exact h
  · exact hf

theorem nextLegal_whenRunning_same {f : State → State} (hf : (f s).tables = s.tables) :
    NextLegal (whenRunning s f) :=
  nextLegal_whenRunning h (hf ▸ h)

theorem nextLegal_whenUp {f : State → State} (hf : ∀ u, (f u).tables = u.tables) :
    NextLegal (whenUp s f) := by
  refine nextLegal_whenRunning_same h ?_
  split
  · exact hf s
  · rfl

theorem nextLegal_whenDue {due : State → Bool} {f : State → State}
    (hf : (f s).tables = s.tables) : NextLegal (whenDue due s f) := by
  refine nextLegal_whenRunning_same h ?_
  split
  · rw [State.tables_finish, hf]
  · rfl

/-- An expiry that changes the floor alone. -/
theorem nextLegal_whenDue_onFloor {due : State → Bool} {g : State → Floor → Floor} :
    NextLegal (whenDue due s fun s => s.onFloor (g s)) :=
  nextLegal_whenDue h (State.onFloor_tables _ _)

/-- An expiry that changes the desk alone. -/
theorem nextLegal_whenDue_onDesk {due : State → Bool} {g : State → Desk → Desk} :
    NextLegal (whenDue due s fun s => s.onDesk (g s)) :=
  nextLegal_whenDue h (State.onDesk_tables _ _)

theorem nextLegal_whenPhase {n : LineIx} {ph : Phase} {f : Turn → State → State}
    (hf : ∀ u, (f u s).tables = s.tables) : NextLegal (whenPhase n ph s f) := by
  refine nextLegal_whenRunning_same h ?_
  split
  · exact hf _
  · rfl

/-- A request keeps the tables legal where its execution does (R179, R180). -/
theorem nextLegal_request {kind : BitVec 6} {tag : Byte} {run : State → Executed}
    (hrun : (run s.hunt).state.tables.legal) : NextLegal (request kind tag run s) := by
  refine nextLegal_whenRunning h ?_
  unfold State.take
  split
  · exact h
  · split
    · exact h
    · split
      · rw [State.tables_arbiter, State.tables_loseRequest]
        exact h
      · rw [State.tables_finish]
        exact hrun

theorem nextLegal_request_same {kind : BitVec 6} {tag : Byte} {run : State → Executed}
    (hrun : ∀ u, (run u).state.tables = u.tables) : NextLegal (request kind tag run s) :=
  nextLegal_request h ((hrun s.hunt).symm ▸ h)

/-! ## Commands of a common form -/

theorem nextLegal_tick (linkOk : Bool) : NextLegal (execTick linkOk s) :=
  nextLegal_whenRunning_same h rfl

theorem nextLegal_badLength : NextLegal (execBadLength s) :=
  nextLegal_whenUp h fun _ => rfl

theorem nextLegal_badCheck : NextLegal (execBadCheck s) :=
  nextLegal_whenUp h fun _ => rfl

theorem nextLegal_wrongChannel : NextLegal (execWrongChannel s) :=
  nextLegal_whenUp h fun _ => rfl

theorem nextLegal_bagSettleExpiry (l : LaneIx) : NextLegal (execBagSettleExpiry l s) :=
  nextLegal_whenDue_onFloor h

theorem nextLegal_inactivityExpiry (l : LaneIx) : NextLegal (execInactivityExpiry l s) :=
  nextLegal_whenDue_onFloor h

theorem nextLegal_presenceExpiry (l : LaneIx) : NextLegal (execPresenceExpiry l s) :=
  nextLegal_whenDue_onFloor h

theorem nextLegal_refusalMessageExpiry (l : LaneIx) : NextLegal (execRefusalMessageExpiry l s) :=
  nextLegal_whenDue_onFloor h

theorem nextLegal_escalationExpiry (k : SlotIx) : NextLegal (execEscalationExpiry k s) :=
  nextLegal_whenDue_onDesk h

theorem nextLegal_offerExpiry (k : SlotIx) : NextLegal (execOfferExpiry k s) :=
  nextLegal_whenDue_onDesk h

theorem nextLegal_claimExpiry (k : SlotIx) : NextLegal (execClaimExpiry k s) :=
  nextLegal_whenDue_onDesk h

theorem nextLegal_pollEnd (n : LineIx) : NextLegal (execPollEnd n s) :=
  nextLegal_whenPhase h fun _ => rfl

theorem nextLegal_miss (n : LineIx) : NextLegal (execMiss n s) :=
  nextLegal_whenPhase h fun _ => by simp

theorem nextLegal_damagedAnswer (n : LineIx) : NextLegal (execDamagedAnswer n s) :=
  nextLegal_whenPhase h fun _ => State.tables_endDamaged _ _ _

theorem nextLegal_answerTruncated (n : LineIx) : NextLegal (execAnswerTruncated n s) :=
  nextLegal_whenPhase h fun _ => State.tables_endDamaged _ _ _

theorem nextLegal_startCharacter : NextLegal (execStartCharacter s) :=
  nextLegal_whenUp h fun _ => rfl

theorem nextLegal_answerStart (n : LineIx) : NextLegal (execAnswerStart n s) :=
  nextLegal_whenPhase h fun _ => rfl

/-! ## Commands with cases of their own -/

theorem nextLegal_resetPinLow : NextLegal (execResetPinLow s) :=
  nextLegal_whenRunning_same h
    (foldl_same (v := State.tables) (fun _ _ => rfl) allLines s)

theorem nextLegal_resetPinHigh : NextLegal (execResetPinHigh s) := by
  refine nextLegal_next ?_
  split
  · exact h
  · exact State.legal_partReset _ h

theorem nextLegal_linkDown : NextLegal (execLinkDown s) := by
  have hdown : s.goDown.tables.legal := s.tables_goDown.symm ▸ h
  refine nextLegal_whenRunning h ?_
  split
  · dsimp only
    split
    · exact State.legal_partReset _ hdown
    · rw [State.tables_finish]
      exact hdown
  · exact h

theorem nextLegal_linkUp : NextLegal (execLinkUp s) := by
  refine nextLegal_whenRunning_same h ?_
  split
  · exact State.tables_arbiter _
  · rfl

theorem nextLegal_callInputSample (levels : LaneSet) :
    NextLegal (execCallInputSample levels s) := by
  refine nextLegal_whenRunning_same h ?_
  rw [State.tables_finish, State.onFloor_tables]

theorem nextLegal_skippedCharacter : NextLegal (execSkippedCharacter s) := by
  refine nextLegal_whenUp h fun u => ?_
  split <;> rfl

theorem nextLegal_truncated : NextLegal (execTruncated s) := by
  refine nextLegal_whenUp h fun u => ?_
  split
  · rfl
  · split <;> rfl

theorem nextLegal_lostRequest : NextLegal (execLostRequest s) := by
  refine nextLegal_whenUp h fun u => ?_
  split
  · rfl
  · split
    · rw [State.tables_arbiter, State.tables_loseRequest, State.hunt_tables]
    · rfl

theorem nextLegal_unknownRequest (tag : Byte) (kind : BitVec 6) (content : List Byte) :
    NextLegal (execUnknownRequest tag kind content s) := by
  unfold execUnknownRequest
  split
  · exact nextLegal_next h
  · exact nextLegal_request_same h fun _ => rfl

theorem nextLegal_messageComplete : NextLegal (execMessageComplete s) := by
  refine nextLegal_whenRunning_same h ?_
  split <;> simp

theorem nextLegal_responseComplete : NextLegal (execResponseComplete s) := by
  refine nextLegal_whenRunning h ?_
  split
  case h_1 => exact State.legal_responseSent h
  all_goals exact h

theorem nextLegal_laneEventComplete : NextLegal (execLaneEventComplete s) := by
  refine nextLegal_whenRunning_same h ?_
  split <;> simp

theorem nextLegal_wakeSettleExpiry (n : LineIx) : NextLegal (execWakeSettleExpiry n s) := by
  refine nextLegal_whenRunning_same h ?_
  split <;> simp

theorem nextLegal_goodAnswer (n : LineIx) (chars : List RxChar) :
    NextLegal (execGoodAnswer n chars s) := by
  refine nextLegal_whenPhase h fun u => ?_
  rw [State.tables_endTurn, State.modLine_tables]
  split <;> simp

theorem nextLegal_lineBreak (n : LineIx) : NextLegal (execLineBreak n s) := by
  refine nextLegal_whenRunning_same h ?_
  split
  · exact s.tables_breakActive n
  · rfl
  · rfl

theorem nextLegal_stray (n : LineIx) (c : RxChar) : NextLegal (execStray n c s) := by
  refine nextLegal_whenRunning_same h ?_
  dsimp only
  split
  · split <;> rfl
  · split <;> rfl

theorem nextLegal_idleRoundEnd (n : LineIx) : NextLegal (execIdleRoundEnd n s) := by
  refine nextLegal_whenRunning_same h ?_
  split <;> simp

end

/-- POWER_ON begins from the reset tables, whatever the tables were. -/
theorem nextLegal_powerOn (resetLow : Bool) (s : State) : NextLegal (execPowerOn resetLow s) := by
  refine nextLegal_next ?_
  split
  · exact State.reset_tables_legal
  · rw [State.tables_arbiter, State.tables_beginLines]
    exact State.reset_tables_legal

/-- Every command keeps the tables legal. -/
theorem nextLegal_exec (i : Instr) {s : State} (h : s.tables.legal) : NextLegal (exec i s) := by
  cases i with
  | powerOn resetLow => exact nextLegal_powerOn resetLow s
  | resetPinLow => exact nextLegal_resetPinLow h
  | resetPinHigh => exact nextLegal_resetPinHigh h
  | tick linkOk => exact nextLegal_tick h linkOk
  | linkDown => exact nextLegal_linkDown h
  | linkUp => exact nextLegal_linkUp h
  | callInputSample levels => exact nextLegal_callInputSample h levels
  | skippedCharacter => exact nextLegal_skippedCharacter h
  | badLength => exact nextLegal_badLength h
  | truncated => exact nextLegal_truncated h
  | badCheck => exact nextLegal_badCheck h
  | wrongChannel => exact nextLegal_wrongChannel h
  | lostRequest => exact nextLegal_lostRequest h
  | unknownRequest tag kind content => exact nextLegal_unknownRequest h tag kind content
  | credit _ c n => exact nextLegal_request_same h (State.tables_runCredit c n)
  | channelSetEnable _ c e => exact nextLegal_request_same h (State.tables_runChannelSet c e)
  | channelSetDisable _ c => exact nextLegal_request_same h (State.tables_runChannelSet c 0)
  | mapSet _ k c => exact nextLegal_request_same h (State.tables_runMapSet k c)
  | loadBegin _ b g w => exact nextLegal_request h (State.legal_runLoadBegin b w g h)
  | loadGroups _ b es => exact nextLegal_request h (State.legal_runLoadGroups b es h)
  | loadWatch _ b es => exact nextLegal_request h (State.legal_runLoadWatch b es h)
  | loadEnd _ b => exact nextLegal_request h (State.legal_runLoadEnd b h)
  | loadAbort _ b => exact nextLegal_request h (State.legal_runLoadAbort b h)
  | commit _ b => exact nextLegal_request h (State.legal_runCommit b h)
  | badgeSet _ n lv => exact nextLegal_request h (State.legal_runBadgeSet n lv h)
  | badgeClear _ m n => exact nextLegal_request h (State.legal_runBadgeClear m n h)
  | badgeClearAll _ n => exact nextLegal_request h (State.legal_runBadgeClear 1 n h)
  | zoneSet _ c ls => exact nextLegal_request h (State.legal_runZoneSet c ls h)
  | laneOpen _ l => exact nextLegal_request_same h (State.tables_runLaneOpen l)
  | laneClose _ l f => exact nextLegal_request_same h (State.tables_runLaneClose l f)
  | laneCloseForce _ l => exact nextLegal_request_same h (State.tables_runLaneClose l 1)
  | laneReset _ l => exact nextLegal_request_same h (State.tables_runLaneReset l)
  | inputSet _ l e g => exact nextLegal_request_same h (State.tables_runInputSet l e g)
  | lineQuiet _ n => exact nextLegal_request_same h (State.tables_runLineQuiet n)
  | lineWake _ n => exact nextLegal_request_same h (State.tables_runLineWake n)
  | consoleOn _ c => exact nextLegal_request_same h (State.tables_runConsoleOn c)
  | consoleOff _ c => exact nextLegal_request_same h (State.tables_runConsoleOff c)
  | claim _ c k i => exact nextLegal_request_same h (State.tables_runClaim c k i)
  | decline _ c k i => exact nextLegal_request_same h (State.tables_runDecline c k i)
  | release _ c k i => exact nextLegal_request_same h (State.tables_runRelease c k i)
  | resolveClear _ c k i a => exact nextLegal_request_same h (State.tables_runResolve c k i a)
  | resolveRefer _ c k i => exact nextLegal_request_same h (State.tables_runResolve c k i 1)
  | readLane _ _ _ => exact nextLegal_request_same h fun u => u.tables_answerRead _
  | readQueue _ _ _ => exact nextLegal_request_same h fun u => u.tables_answerRead _
  | readStatus _ _ => exact nextLegal_request_same h fun u => u.tables_answerRead _
  | readCounters _ g c => exact nextLegal_request_same h (State.tables_runReadCounters g c)
  | setParam _ p v => exact nextLegal_request_same h (State.tables_runSetParam p v)
  | setTime _ _ => exact nextLegal_request_same h fun _ => rfl
  | partReset _ => exact nextLegal_request_same h fun _ => rfl
  | messageComplete => exact nextLegal_messageComplete h
  | responseComplete => exact nextLegal_responseComplete h
  | laneEventComplete => exact nextLegal_laneEventComplete h
  | bagSettleExpiry l => exact nextLegal_bagSettleExpiry h l
  | inactivityExpiry l => exact nextLegal_inactivityExpiry h l
  | presenceExpiry l => exact nextLegal_presenceExpiry h l
  | refusalMessageExpiry l => exact nextLegal_refusalMessageExpiry h l
  | escalationExpiry k => exact nextLegal_escalationExpiry h k
  | offerExpiry k => exact nextLegal_offerExpiry h k
  | claimExpiry k => exact nextLegal_claimExpiry h k
  | wakeSettleExpiry n => exact nextLegal_wakeSettleExpiry h n
  | pollEnd n => exact nextLegal_pollEnd h n
  | miss n => exact nextLegal_miss h n
  | damagedAnswer n => exact nextLegal_damagedAnswer h n
  | answerTruncated n => exact nextLegal_answerTruncated h n
  | goodAnswer n chars => exact nextLegal_goodAnswer h n chars
  | lineBreak n => exact nextLegal_lineBreak h n
  | stray n c => exact nextLegal_stray h n c
  | idleRoundEnd n => exact nextLegal_idleRoundEnd h n
  | startCharacter => exact nextLegal_startCharacter h
  | answerStart n => exact nextLegal_answerStart h n

/-- Settles O56: the front command keeps the tables legal, command by command. -/
theorem tablesInvariantKept : Obligations.TablesInvariantKept := by
  unfold Obligations.TablesInvariantKept
  intro s t h ht
  unfold step at ht
  split at ht
  · cases ht
    exact h
  · rename_i c rest _
    exact nextLegal_exec c (s := { s with pending := rest }) h t ht

end Sys2Proof.Machine
end

section
/-! PROOFS. The settings SET TIME, PART RESET and INPUT SET (R136, R173, R191), and the sampling of the call
inputs (R136, R137). -/

namespace Sys2Proof.Machine

/-! ## INPUT SET (R136) -/

theorem State.runInputSet_badArgument (s : State) {lane enable edge : Byte}
    (h : 23 < lane.toNat ∨ 1 < enable.toNat ∨ 2 < edge.toNat) :
    s.runInputSet lane enable edge = s.refuse .badArgument := by
  unfold State.runInputSet
  split
  · rename_i l on ed hl hon hed
    obtain h | h | h := h
    · simp [finArg_bad (b := lane) (n := 24) h] at hl
    · simp [yesNoArg_bad h] at hon
    · simp [edgeArg_bad h] at hed
  · rfl

theorem State.runInputSet_inRange (s : State) {lane enable edge : Byte} {l : LaneIx} {on : Bool}
    {ed : Edge} (hl : lane.toNat = l.1) (hon : enable.toNat = on.toNat)
    (hed : edge.toNat = ed.code) :
    s.runInputSet lane enable edge = State.done
      { s with floor := s.floor.modLane l (fun x =>
          { x with call := { x.call with enabled := on, edge := ed } }) } := by
  simp only [State.runInputSet, finArg_num hl, yesNoArg_num hon, edgeArg_num hed]
  rfl

/-- Settles O38: each request is taken, and its execution is read off. -/
theorem settingsTaken : Obligations.SettingsTaken := by
  unfold Obligations.SettingsTaken
  refine fun s tag lane enable edge time h => ⟨request_answers h rfl, request_answers h rfl,
    fun hbad => ?_, fun l on ed hl hon hed => ?_⟩
  · exact request_refuses h (s.hunt.runInputSet_badArgument hbad)
  · exact request_answers h (s.hunt.runInputSet_inRange hl hon hed)

/-! ## Call inputs (R136, R137) -/

/-- The filter takes the sample; the level follows where two samples agree (R136). -/
theorem CallInput.sample_input (c : CallInput) (v : Bool) :
    (c.sample v).1 =
      { c with prev := some v, level := if c.prev = some v then some v else c.level } := by
  unfold CallInput.sample
  by_cases hp : c.prev = some v <;> by_cases hl : c.level = some v <;> simp [hp, hl]

/-- The filtered level makes an edge where two samples agree on the other of the two levels (R136). -/
theorem CallInput.sample_edge (c : CallInput) (v : Bool) :
    (c.sample v).2 =
      if c.prev = some v ∧ c.level = some (!v) then some (if v then .rise else .fall) else none := by
  unfold CallInput.sample
  by_cases hp : c.prev = some v
  · cases hl : c.level with
    | none => simp [hp]
    | some w => cases v <;> cases w <;> simp [hp]
  · simp [hp]

theorem Edge.matches_iff (setting e : Edge) :
    setting.matches e = true ↔ setting = .both ∨ setting = e := by
  simp [Edge.matches]

/-- A sample is a press: it makes a matching edge of an enabled input whose pending flag is clear
(R137). -/
def CallInput.pressedBy (c : CallInput) (v : Bool) : Prop :=
  c.enabled = true ∧ c.pending = false ∧ c.prev = some v ∧ c.level = some (!v) ∧
    (c.edge = .both ∨ (v = true ∧ c.edge = .rise) ∨ (v = false ∧ c.edge = .fall))

/-- The edge that agreeing samples `v` make matches the edge setting (R137). -/
theorem Edge.matches_sample (setting : Edge) (v : Bool) :
    setting.matches (if v then .rise else .fall) = true ↔
      setting = .both ∨ (v = true ∧ setting = .rise) ∨ (v = false ∧ setting = .fall) := by
  rw [Edge.matches_iff]
  cases v with
  | false => simp only [Bool.false_eq_true, if_false, false_and, true_and, false_or]
  | true => simp only [if_true, true_and, Bool.true_eq_false, false_and, or_false]

theorem CallInput.pressedBy_iff (c : CallInput) (v : Bool) :
    (match (c.sample v).2 with
      | some ed => c.enabled && c.edge.matches ed && !c.pending
      | none => false) = true ↔ c.pressedBy v := by
  rw [CallInput.sample_edge]
  by_cases h : c.prev = some v ∧ c.level = some (!v)
  · rw [if_pos h]
    dsimp only
    rw [Bool.and_eq_true, Bool.and_eq_true, Bool.not_eq_true', Edge.matches_sample]
    exact ⟨fun ⟨⟨he, hm⟩, hc⟩ => ⟨he, hc, h.1, h.2, hm⟩, fun ⟨he, hc, _, _, hm⟩ => ⟨⟨he, hm⟩, hc⟩⟩
  · rw [if_neg h]
    exact ⟨fun hf => absurd hf Bool.false_ne_true, fun ⟨_, _, hp, hl, _⟩ => absurd ⟨hp, hl⟩ h⟩

theorem Floor.sampleCall_press {e : Env} {levels : LaneSet} {f : Floor} {l : LaneIx}
    (h : (f.lane l).call.pressedBy (hasLane levels l)) :
    Floor.sampleCall e levels f l =
      (f.modLane l (fun x => { x with call := { (f.lane l).call with
          prev := some (hasLane levels l), level := some (hasLane levels l), pending := true } })).raise
        e l .help none (some .button) := by
  have hp : (f.lane l).call.prev = some (hasLane levels l) := h.2.2.1
  refine (if_pos ((CallInput.pressedBy_iff _ _).2 h)).trans ?_
  rw [CallInput.sample_input, if_pos hp]

theorem Floor.sampleCall_noPress {e : Env} {levels : LaneSet} {f : Floor} {l : LaneIx}
    (h : ¬(f.lane l).call.pressedBy (hasLane levels l)) :
    Floor.sampleCall e levels f l =
      f.modLane l (fun x => { x with call := { (f.lane l).call with
        prev := some (hasLane levels l)
        level := if (f.lane l).call.prev = some (hasLane levels l) then some (hasLane levels l)
          else (f.lane l).call.level } }) := by
  refine (if_neg (mt (CallInput.pressedBy_iff _ _).1 h)).trans ?_
  rw [CallInput.sample_input]

theorem execCallInputSample_running {s : State} (h : s.held = none) (levels : LaneSet) :
    execCallInputSample levels s = .next (State.finish
      { s with floor := allLanes.foldl (Floor.sampleCall s.env levels) s.floor }) := by
  unfold execCallInputSample
  rw [whenRunning_free h]
  unfold State.onFloor
  rfl

/-- Settles O10: the command is a fold over the lanes, and a lane's sample is a press or none. -/
theorem callInputsSampled : Obligations.CallInputsSampled := by
  unfold Obligations.CallInputsSampled
  exact ⟨fun s levels h => execCallInputSample_running h levels,
    fun e levels f l => ⟨fun h => Floor.sampleCall_press h, fun h => Floor.sampleCall_noPress h⟩⟩

end Sys2Proof.Machine
end

section
/-! PROOFS. LINE QUIET and LINE WAKE (R133, R134). -/

namespace Sys2Proof.Machine

/-! ## What the requests do by the state of the line -/

section
variable (s : State) {line : Byte} {n : LineIx}

theorem State.runLineQuiet_badArgument (h : 3 < line.toNat) :
    s.runLineQuiet line = s.refuse .badArgument := by
  simp only [State.runLineQuiet, finArg_bad (n := 4) h]

theorem State.runLineWake_badArgument (h : 3 < line.toNat) :
    s.runLineWake line = s.refuse .badArgument := by
  simp only [State.runLineWake, finArg_bad (n := 4) h]

theorem State.runLineWake_inRange (h : line.toNat = n.1) :
    s.runLineWake line = (s.modLine n Line.wake).done := by
  simp only [State.runLineWake, finArg_num h]

theorem State.runLineQuiet_quiet (h : line.toNat = n.1) (hq : (s.line n).state = .quiet) :
    s.runLineQuiet line = s.done := by
  simp only [State.runLineQuiet, finArg_num h, hq]

theorem State.runLineQuiet_waking (h : line.toNat = n.1) (hw : (s.line n).state = .waking) :
    s.runLineQuiet line = s.refuse .badState := by
  simp only [State.runLineQuiet, finArg_num h, hw]

/-- LINE QUIET of an ACTIVE line is judged by quiet pending, by its lanes, then by its turn. -/
theorem State.runLineQuiet_active (h : line.toNat = n.1) (ha : (s.line n).state = .active) :
    s.runLineQuiet line =
      if (s.line n).quietPending then s.done
      else if s.lineClosed n = false then s.refuse .badState
      else if (s.line n).turn.isNone then (s.enterQuiet n).done
      else (s.modLine n (fun x => { x with quietPending := true })).done := by
  simp only [State.runLineQuiet, finArg_num h, ha]

theorem State.lineClosed_iff (n : LineIx) :
    s.lineClosed n = true ↔ ∀ d, (s.floor.lane (laneOf n d)).state = .closed := by
  simp [State.lineClosed, allDrops]

theorem State.runLineQuiet_open (h : line.toNat = n.1) (ha : (s.line n).state = .active)
    (hp : (s.line n).quietPending = false)
    (ho : ¬∀ d, (s.floor.lane (laneOf n d)).state = .closed) :
    s.runLineQuiet line = s.refuse .badState := by
  have hopen : s.lineClosed n = false := Bool.eq_false_iff.2 (mt (s.lineClosed_iff n).1 ho)
  simp [s.runLineQuiet_active h ha, hp, hopen]

theorem State.runLineQuiet_closed (h : line.toNat = n.1) (ha : (s.line n).state = .active)
    (hp : (s.line n).quietPending = false)
    (hc : ∀ d, (s.floor.lane (laneOf n d)).state = .closed) :
    s.runLineQuiet line =
      if (s.line n).turn.isNone then (s.enterQuiet n).done
      else (s.modLine n (fun x => { x with quietPending := true })).done := by
  simp [s.runLineQuiet_active h ha, hp, (s.lineClosed_iff n).2 hc]

end

/-! ## Line records: changed, woken, and brought to QUIET (R133, R134) -/

/-- A line record replaced by a changed one is the line record changed. -/
theorem State.modLine_eq (s : State) (n : LineIx) (g : Line → Line) :
    s.modLine n g = { s with lines := upd s.lines n (g (s.line n)) } := rfl

/-- A line record left as it is. -/
theorem State.modLine_same {s : State} {n : LineIx} {g : Line → Line}
    (h : g (s.line n) = s.line n) : s.modLine n g = s := by
  rw [State.modLine_eq, h]
  exact congrArg (fun v => { s with lines := v }) (upd_get ..)

theorem State.modLine_modLine (s : State) (n : LineIx) (g h : Line → Line) :
    (s.modLine n g).modLine n h = s.modLine n (fun x => h (g x)) := by
  rw [State.modLine_eq (s.modLine n g), State.line_modLine_self]
  exact congrArg (fun v => { s with lines := v }) (upd_upd ..)

theorem Line.wake_quiet {x : Line} (h : x.state = .quiet) :
    x.wake = { x with state := .waking, settle := some 2 } := by
  simp only [Line.wake, h]
  rfl

theorem Line.wake_active {x : Line} (h : x.state = .active) :
    x.wake = { x with quietPending := false } := by
  simp only [Line.wake, h]

theorem Line.wake_waking {x : Line} (h : x.state = .waking) : x.wake = x := by
  simp only [Line.wake, h]

/-- A line that enters QUIET gives its slot's buffer back (R133). -/
theorem State.enterQuiet_eq (s : State) (n : LineIx) :
    s.enterQuiet n =
      { s with
          floor := { s.floor with free := s.floor.free ++ (s.line n).slot.toList }
          lines := upd s.lines n
            { s.line n with state := .quiet, quietPending := false, slot := none, turn := none
                            attention := .inactive, idleWait := false } } := by
  unfold State.enterQuiet
  cases h : (s.line n).slot with
  | none =>
    simp only [h, Option.toList_none, List.append_nil]
    rfl
  | some b =>
    simp only [h]
    rfl

/-- Settles O28, by the state of the line. -/
theorem lineQuietsAndWakes : Obligations.LineQuietsAndWakes := by
  unfold Obligations.LineQuietsAndWakes
  intro s tag line h
  refine ⟨fun hbad => ⟨?_, ?_⟩, fun n hn => ⟨fun hw => ⟨?_, ?_⟩, fun hq => ⟨?_, ?_⟩,
    fun ha => ⟨?_, fun hp => ?_, fun hp ho => ?_, fun hp hc ht => ?_, fun hp hc ht => ?_⟩⟩⟩
  · exact request_refuses h (s.hunt.runLineQuiet_badArgument hbad)
  · exact request_refuses h (s.hunt.runLineWake_badArgument hbad)
  · exact request_refuses h (s.hunt.runLineQuiet_waking hn hw)
  · refine request_answers h ((s.hunt.runLineWake_inRange hn).trans ?_)
    exact congrArg State.done (State.modLine_same (s := s.hunt) (Line.wake_waking hw))
  · exact request_answers h (s.hunt.runLineQuiet_quiet hn hq)
  · refine request_answers h ((s.hunt.runLineWake_inRange hn).trans ?_)
    exact congrArg (fun y => State.done { s.hunt with lines := upd s.lines n y })
      (Line.wake_quiet hq)
  · refine request_answers h ((s.hunt.runLineWake_inRange hn).trans ?_)
    exact congrArg (fun y => State.done { s.hunt with lines := upd s.lines n y })
      (Line.wake_active ha)
  · exact request_answers h ((s.hunt.runLineQuiet_active hn ha).trans (if_pos hp))
  · exact request_refuses h (s.hunt.runLineQuiet_open hn ha hp ho)
  · refine request_answers h ((s.hunt.runLineQuiet_closed hn ha hp hc).trans (if_neg ?_))
    exact fun hi => absurd (Option.isNone_iff_eq_none.1 hi) (Option.isSome_iff_ne_none.1 ht)
  · refine request_answers h ((s.hunt.runLineQuiet_closed hn ha hp hc).trans ?_)
    exact (if_pos (Option.isNone_iff_eq_none.2 ht)).trans
      (congrArg State.done (s.hunt.enterQuiet_eq n))

end Sys2Proof.Machine
end

section
/-! PROOFS. The judgement of a drop at the end of a turn (R121, R129, R130, R135). -/

namespace Sys2Proof.Machine

/-! ## A drop's link record after a turn (R129, R130) -/

theorem DropLink.link_afterTurn (o : TurnEnd) (d : DropLink) :
    (d.afterTurn o).link = (d.byOutcome o).link := by
  obtain _ | _ | _ | _ := o <;> rfl

theorem DropLink.misses_afterTurn (o : TurnEnd) (d : DropLink) :
    (d.afterTurn o).misses = (d.byOutcome o).misses := by
  obtain _ | _ | _ | _ := o <;> rfl

theorem DropLink.lastSeq_afterTurn (o : TurnEnd) (d : DropLink) :
    (d.afterTurn o).lastSeq = (d.byOutcome o).lastSeq := by
  obtain _ | _ | _ | _ := o <;> rfl

/-- The outcome's change of the miss count and the link state leaves quality and trouble (R129). -/
theorem DropLink.byOutcome_keeps (o : TurnEnd) (d : DropLink) :
    (d.byOutcome o).quality = d.quality ∧ (d.byOutcome o).trouble = d.trouble := by
  unfold DropLink.byOutcome
  split
  · split
    · exact ⟨rfl, rfl⟩
    · split <;> exact ⟨rfl, rfl⟩
    · exact ⟨rfl, rfl⟩
  · exact ⟨rfl, rfl⟩
  · split <;> exact ⟨rfl, rfl⟩

theorem DropLink.quality_afterTurn (o : TurnEnd) (d : DropLink) :
    (d.afterTurn o).quality = match o with
      | .miss => d.quality
      | .damaged => min (d.quality + 4) 15
      | .good true => min (d.quality + 1) 15
      | .good false => d.quality - 1 := by
  have h := (d.byOutcome_keeps o).1
  obtain _ | _ | _ | _ := o
  · exact h
  · exact congrArg (fun q => min (q + 4) 15) h
  · exact congrArg (· - 1) h
  · exact congrArg (fun q => min (q + 1) 15) h

/-- Trouble is judged on the link state and quality after the turn, from the trouble before it (R130). -/
theorem DropLink.trouble_afterTurn (o : TurnEnd) (d : DropLink) :
    (d.afterTurn o).trouble =
      DropLink.troubled { d.afterTurn o with trouble := d.trouble } := by
  have h := (d.byOutcome_keeps o).2
  have hq : ((d.byOutcome o).qualityBy o).trouble = d.trouble := by
    obtain _ | _ | _ | _ := o <;> exact h
  rw [← hq]
  rfl

theorem DropLink.trouble_begins {d : DropLink} (o : TurnEnd) (h : d.trouble = false) :
    (d.afterTurn o).trouble = true ↔
      (d.afterTurn o).link = .offline ∨ 12 ≤ (d.afterTurn o).quality := by
  rw [DropLink.trouble_afterTurn]
  exact DropLink.troubled_clear h

theorem DropLink.trouble_ends {d : DropLink} (o : TurnEnd) (h : d.trouble = true) :
    (d.afterTurn o).trouble = false ↔
      (d.afterTurn o).link = .online ∧ (d.afterTurn o).quality < 8 := by
  rw [DropLink.trouble_afterTurn]
  exact DropLink.troubled_held h

section
variable {d : DropLink}

theorem DropLink.afterMiss_online (h : d.link = .online) :
    (d.afterTurn .miss).link = .silent ∧ (d.afterTurn .miss).misses = 1 := by
  rw [DropLink.link_afterTurn, DropLink.misses_afterTurn]
  simp [DropLink.byOutcome, h]

theorem DropLink.afterMiss_silent (h : d.link = .silent) (hm : d.misses + 1 < 3) :
    (d.afterTurn .miss).link = .silent ∧ (d.afterTurn .miss).misses = d.misses + 1 := by
  rw [DropLink.link_afterTurn, DropLink.misses_afterTurn]
  simp [DropLink.byOutcome, h, if_pos hm]

theorem DropLink.afterMiss_lost (h : d.link = .silent) (hm : 3 ≤ d.misses + 1) :
    (d.afterTurn .miss).link = .offline ∧ (d.afterTurn .miss).misses = 3 := by
  rw [DropLink.link_afterTurn, DropLink.misses_afterTurn]
  simp [DropLink.byOutcome, h, if_neg (Nat.not_lt.2 hm)]

theorem DropLink.afterMiss_offline (h : d.link = .offline) :
    (d.afterTurn .miss).link = .offline ∧ (d.afterTurn .miss).misses = d.misses := by
  rw [DropLink.link_afterTurn, DropLink.misses_afterTurn]
  simp [DropLink.byOutcome, h]

theorem DropLink.lastSeq_afterMiss : (d.afterTurn .miss).lastSeq = d.lastSeq := by
  rw [DropLink.lastSeq_afterTurn]
  simp only [DropLink.byOutcome]
  split
  · rfl
  · split <;> rfl
  · rfl

theorem DropLink.afterGood (noisy : Bool) :
    let y := d.afterTurn (.good noisy)
    y.link = .online ∧ (d.link ≠ .online → y.misses = 0) ∧
      (d.link = .online → y.misses = d.misses) ∧ (d.link = .offline → y.lastSeq = none) ∧
      (d.link ≠ .offline → y.lastSeq = d.lastSeq) := by
  dsimp only
  rw [DropLink.link_afterTurn, DropLink.misses_afterTurn, DropLink.lastSeq_afterTurn]
  cases h : d.link <;> simp [DropLink.byOutcome, h]

end

/-! ## The drop judged (R127, R130, R135) -/

/-- LINK is raised as trouble begins at a lane that is not CLOSED; as it ends, LOST_FRAME is raised in a
transaction, then LINK is resolved where it is raised (R130). -/
theorem Floor.troubleChanged_eq (e : Env) (l : LaneIx) (was is : Bool) (f : Floor) :
    f.troubleChanged e l was is =
      let doubted := if (f.lane l).state.inTxn then f.raise e l .lostFrame (some (.lost 0)) none
        else f
      if was = false ∧ is = true ∧ (f.lane l).state ≠ .closed then f.raise e l .link none none
      else if was = true ∧ is = false then
        if (f.lane l).has .link then (doubted.resolve l .link).pass e l else doubted
      else f := by
  unfold Floor.troubleChanged
  cases was <;> cases is <;> simp

theorem LineCounters.byOutcome_eq (o : TurnEnd) (c : LineCounters) :
    c.byOutcome o = match o with
      | .miss => { c with misses := min (c.misses + 1) 65535 }
      | .damaged => { c with damaged := min (c.damaged + 1) 65535 }
      | .good true => { c with noisy := min (c.noisy + 1) 65535 }
      | .good false => c := by
  obtain _ | _ | _ | _ := o <;> rfl

/-- A judged drop changes the floor, its line's counters and its LINE flag. -/
theorem State.judgeDrop_eq (s : State) (n : LineIx) (d : DropIx) (o : TurnEnd) :
    let l := laneOf n d
    let old := (s.floor.lane l).drop
    let new := old.afterTurn o
    s.judgeDrop n d o = { s with
      floor := ((s.floor.modLane l (fun x => { x with drop := new })).touch l).troubleChanged s.env l
        old.trouble new.trouble
      lines := upd s.lines n { s.line n with counters := (s.line n).counters.byOutcome o }
      notices := { s.notices with
        line := if old.link = new.link then s.notices.line else addLane s.notices.line l } } := by
  intro l old new
  by_cases h : old.link = new.link
  · rw [if_pos h]
    exact if_pos h
  · rw [if_neg h]
    exact if_neg h

/-- Settles O47: the state by `judgeDrop_eq`, the link record by its outcome. -/
theorem dropJudged : Obligations.DropJudged := by
  unfold Obligations.DropJudged
  refine ⟨fun s n d o => ?_, fun x o => ⟨?_, ?_, ?_, DropLink.trouble_begins o,
    DropLink.trouble_ends o⟩⟩
  · intro l old new f doubted c
    rw [State.judgeDrop_eq, Floor.troubleChanged_eq, LineCounters.byOutcome_eq] <;> rfl
  · rintro rfl
    exact ⟨DropLink.afterMiss_online, DropLink.afterMiss_silent, DropLink.afterMiss_lost,
      DropLink.afterMiss_offline, DropLink.quality_afterTurn .miss x, DropLink.lastSeq_afterMiss⟩
  · rintro rfl
    exact ⟨DropLink.link_afterTurn .damaged x, DropLink.misses_afterTurn .damaged x,
      DropLink.lastSeq_afterTurn .damaged x, DropLink.quality_afterTurn .damaged x⟩
  · rintro noisy rfl
    obtain ⟨hlink, hmiss, hkept, hlost, hseq⟩ := x.afterGood noisy
    refine ⟨hlink, hmiss, hkept, hlost, hseq, ?_⟩
    rw [DropLink.quality_afterTurn]
    cases noisy <;> rfl

end Sys2Proof.Machine
end

section
/-! PROOFS. The phases of a turn and what follows a turn: QUIET, an attention round or the rotation (R122, R125,
R127, R131, R133). -/

namespace Sys2Proof.Machine

/-! ## Phases (R125) -/

theorem State.enterPhase_eq {s : State} {n : LineIx} {u : Turn} (ht : (s.line n).turn = some u)
    (ph : Phase) :
    s.enterPhase n ph =
      { s with lines := upd s.lines n { s.line n with turn := some { u with phase := ph } } } := by
  unfold State.enterPhase
  rw [State.modLine_eq]
  simp only [ht, Option.map_some]

section
variable {s : State} {n : LineIx}

theorem execPollEnd_sending {u : Turn} (h : s.held = none) (hu : (s.line n).turn = some u)
    (hp : u.phase = .sending) : execPollEnd n s = .next
      { s with lines := upd s.lines n { s.line n with turn := some { u with phase := .window } } } := by
  unfold execPollEnd
  rw [whenPhase_in h hu hp, State.enterPhase_eq hu]

theorem execAnswerStart_window {u : Turn} (h : s.held = none) (hu : (s.line n).turn = some u)
    (hp : u.phase = .window) : execAnswerStart n s = .next
      { s with
          lines := upd s.lines n { s.line n with turn := some { u with phase := .receiving } } } := by
  unfold execAnswerStart
  rw [whenPhase_in h hu hp, State.enterPhase_eq hu]

theorem execMiss_window {u : Turn} (h : s.held = none) (hu : (s.line n).turn = some u)
    (hp : u.phase = .window) : execMiss n s = .next ((s.judgeDrop n u.drop .miss).endTurn n) := by
  unfold execMiss
  rw [whenPhase_in h hu hp]

theorem execDamagedAnswer_receiving {u : Turn} (h : s.held = none) (hu : (s.line n).turn = some u)
    (hp : u.phase = .receiving) :
    execDamagedAnswer n s = .next ((s.judgeDrop n u.drop .damaged).endTurn n) := by
  unfold execDamagedAnswer
  rw [whenPhase_in h hu hp]
  rfl

theorem execPollEnd_other (h : ∀ u, (s.line n).turn = some u → u.phase ≠ .sending) :
    execPollEnd n s = .next s := by
  unfold execPollEnd
  exact whenPhase_other h _

theorem execAnswerStart_other (h : ∀ u, (s.line n).turn = some u → u.phase ≠ .window) :
    execAnswerStart n s = .next s := by
  unfold execAnswerStart
  exact whenPhase_other h _

theorem execMiss_other (h : ∀ u, (s.line n).turn = some u → u.phase ≠ .window) :
    execMiss n s = .next s := by
  unfold execMiss
  exact whenPhase_other h _

theorem execDamagedAnswer_other (h : ∀ u, (s.line n).turn = some u → u.phase ≠ .receiving) :
    execDamagedAnswer n s = .next s := by
  unfold execDamagedAnswer
  exact whenPhase_other h _

theorem execGoodAnswer_other (h : ∀ u, (s.line n).turn = some u → u.phase ≠ .receiving)
    (cs : List RxChar) : execGoodAnswer n cs s = .next s := by
  unfold execGoodAnswer
  exact whenPhase_other h _

end

/-! ## The attention round (R131) -/

/-- The first number below `n` that satisfies `p`. -/
theorem find?_finRange {n : Nat} {p : Fin n → Bool} {d : Fin n} (hd : p d = true)
    (hb : ∀ o, o < d → p o = false) : (List.finRange n).find? p = some d := by
  refine List.find?_eq_some_iff_getElem.2 ⟨hd, d.1, by simp, by simp, fun j hj => ?_⟩
  have := hb ⟨j, by omega⟩ hj
  simpa using this

theorem State.offline_iff (s : State) (n : LineIx) (d : DropIx) :
    s.offline n d = true ↔ (s.floor.lane (laneOf n d)).drop.link = .offline := by
  simp [State.offline]

/-- The next drop of an attention round: none behind drop 5. -/
theorem attention_after (d : DropIx) :
    (if h : d.1 < 5 then Attention.active ⟨d.1 + 1, by omega⟩ else .inactive) =
      if d = 5 then .inactive else .active (d + 1) := by
  revert d
  decide

section
variable {s : State} {n : LineIx} {from_ : DropIx}

theorem State.attend_serves {d : DropIx} (hf : from_ ≤ d)
    (hd : ¬(s.floor.lane (laneOf n d)).drop.link = .offline)
    (hb : ∀ o, from_ ≤ o → o < d → (s.floor.lane (laneOf n o)).drop.link = .offline) :
    s.attend n from_.1 = some (State.startTurn
      { s with
          lines := upd s.lines n
            { s.line n with attention := if d = 5 then .inactive else .active (d + 1)
                            idleWait := false } } n d) := by
  have hfind : allDrops.find? (fun d => decide (from_.1 ≤ d.1) && !s.offline n d) = some d := by
    refine find?_finRange ?_ fun o ho => ?_
    · have hon : s.offline n d = false := Bool.eq_false_iff.2 (mt (s.offline_iff n d).1 hd)
      rw [hon, decide_eq_true (Fin.le_def.1 hf)]
      rfl
    · by_cases hfo : from_ ≤ o
      · rw [(s.offline_iff n o).2 (hb o hfo ho)]
        exact Bool.and_false _
      · rw [decide_eq_false (mt Fin.le_def.2 hfo)]
        exact Bool.false_and _
  simp only [State.attend, hfind, attention_after]
  rfl

theorem State.attend_ends
    (h : ∀ d, from_ ≤ d → (s.floor.lane (laneOf n d)).drop.link = .offline) :
    s.attend n from_.1 = none := by
  have hfind : allDrops.find? (fun d => decide (from_.1 ≤ d.1) && !s.offline n d) = none := by
    refine List.find?_eq_none.2 fun d _ => ?_
    by_cases hf : from_ ≤ d
    · rw [(s.offline_iff n d).2 (h d hf), Bool.not_true, Bool.and_false]
      exact Bool.false_ne_true
    · rw [decide_eq_false (mt Fin.le_def.2 hf), Bool.false_and]
      exact Bool.false_ne_true
  simp only [State.attend, hfind]

end

/-! ## Between turns (R122, R131, R133) -/

/-- A line goes on with the rotation, unless it waits in an idle interval: it does so as it was before an
attention round that ended. -/
def State.resume (s : State) (n : LineIx) (t : State) : State :=
  if (s.line n).idleWait then t else t.rotate n rotationSpan

section
variable {s : State} {n : LineIx}

theorem State.nextTurn_quiet (h : (s.line n).quietPending = true) :
    s.nextTurn n = s.enterQuiet n := if_pos h

theorem State.nextTurn_inactive (h : (s.line n).quietPending = false)
    (ha : (s.line n).attention = .inactive) : s.nextTurn n = s.resume n s := by
  simp [State.nextTurn, h, ha, State.resume]

/-- A line with an attention round, due or active, serves it from its place on, or goes on without it. -/
theorem State.nextTurn_attends {from_ : DropIx} (h : (s.line n).quietPending = false)
    (ha : (s.line n).attention = .due ∧ from_ = 0 ∨ (s.line n).attention = .active from_) :
    s.nextTurn n = (s.attend n from_.1).getD (s.resume n
      { s with lines := upd s.lines n { s.line n with attention := .inactive } }) := by
  unfold State.nextTurn
  rw [if_neg (by simp [h])]
  obtain ⟨ha, rfl⟩ | ha := ha <;> simp only [ha] <;> rfl

end

/-! ## The rotation (R122) -/

/-- The drop at the rotation position is due: it is not OFFLINE, or the round is 0. -/
def State.dropDue (s : State) (n : LineIx) : Prop :=
  ¬(s.floor.lane (laneOf n (s.line n).pos)).drop.link = .offline ∨ (s.line n).round = 0

theorem State.dropDue_iff (s : State) (n : LineIx) :
    (!s.offline n (s.line n).pos || (s.line n).round == 0) = true ↔ s.dropDue n := by
  simp [State.dropDue, ← State.offline_iff]

theorem Line.advance_eq (due : Bool) (x : Line) :
    x.advance due =
      if x.pos = 5 then { x with pos := 0, round := x.round + 1, roundServed := false }
      else { x with pos := x.pos + 1, roundServed := x.roundServed || due } := rfl

section
variable {s : State} {n : LineIx} (k : Nat)

theorem State.rotate_due (h : s.dropDue n) :
    s.rotate n (k + 1) = (s.modLine n (Line.advance true)).startTurn n (s.line n).pos := by
  simp only [State.rotate, (s.dropDue_iff n).2 h, if_true]

theorem State.rotate_idles (h : ¬s.dropDue n) (hp : (s.line n).pos = 5)
    (hs : (s.line n).roundServed = false) :
    s.rotate n (k + 1) = s.modLine n (fun x => { x.advance false with idleWait := true }) := by
  have hdue := Bool.eq_false_iff.2 (mt (s.dropDue_iff n).1 h)
  simp only [State.rotate, hdue, Bool.false_eq_true, if_false]
  exact (if_pos ⟨hp, hs⟩).trans (s.modLine_modLine ..)

theorem State.rotate_skips (h : ¬s.dropDue n)
    (hp : (s.line n).pos ≠ 5 ∨ (s.line n).roundServed = true) :
    s.rotate n (k + 1) = (s.modLine n (Line.advance false)).rotate n k := by
  have hdue := Bool.eq_false_iff.2 (mt (s.dropDue_iff n).1 h)
  have hgo : ¬((s.line n).pos = 5 ∧ (s.line n).roundServed = false) := by
    rintro ⟨h5, hf⟩
    exact hp.elim (fun hn => hn h5) (fun ht => absurd (ht.symm.trans hf) (by simp))
  simp only [State.rotate, hdue, if_neg hgo]
  rfl

end

/-- How many positions the rotation considers at most: those of the present round, and those of the next one
where the present has had a due drop. -/
def Line.ahead (x : Line) : Nat := 6 - x.pos.1 + if x.roundServed then 6 else 0

theorem Line.ahead_advance {x : Line} (h : x.pos ≠ 5 ∨ x.roundServed = true) :
    (x.advance false).ahead + 1 = x.ahead := by
  rw [Line.advance_eq]
  by_cases hp : x.pos = 5
  · have hs : x.roundServed = true := h.resolve_left fun hn => hn hp
    simp only [Line.ahead, hp, hs, if_true, Bool.false_eq_true, if_false]
    decide
  · have hne : x.pos.1 ≠ 5 := fun h5 => hp (Fin.ext h5)
    have hlt : x.pos.1 < 5 := by omega
    have hval : (x.pos + 1).1 = x.pos.1 + 1 := Fin.val_add_one_of_lt (Fin.lt_def.2 hlt)
    simp only [if_neg hp, Line.ahead, hval, Bool.or_false]
    omega

theorem Line.ahead_le (x : Line) : x.ahead ≤ 12 := by
  unfold Line.ahead
  split <;> omega

/-- The rotation stops within the positions ahead, so that one more changes nothing. -/
theorem State.rotate_enough {n : LineIx} {k : Nat} {s : State} (h : (s.line n).ahead ≤ k) :
    s.rotate n (k + 1) = s.rotate n k := by
  induction k generalizing s with
  | zero =>
    have hpos : 0 < (s.line n).ahead := by
      unfold Line.ahead
      omega
    omega
  | succ k ih =>
    by_cases hdue : s.dropDue n
    · rw [State.rotate_due _ hdue, State.rotate_due _ hdue]
    · by_cases hp : (s.line n).pos = 5 ∧ (s.line n).roundServed = false
      · rw [State.rotate_idles _ hdue hp.1 hp.2, State.rotate_idles _ hdue hp.1 hp.2]
      · have hgo : (s.line n).pos ≠ 5 ∨ (s.line n).roundServed = true := by
          by_cases h5 : (s.line n).pos = 5
          · exact .inr (Bool.not_eq_false _ ▸ fun hs => hp ⟨h5, hs⟩)
          · exact .inl h5
        rw [State.rotate_skips _ hdue hgo, State.rotate_skips _ hdue hgo]
        refine ih ?_
        rw [State.line_modLine_self]
        have := Line.ahead_advance hgo
        omega

/-- A position that is not due is passed over. -/
theorem State.rotate_passes {s : State} {n : LineIx} (h : ¬s.dropDue n)
    (hp : (s.line n).pos ≠ 5 ∨ (s.line n).roundServed = true) :
    s.rotate n rotationSpan = (s.modLine n (Line.advance false)).rotate n rotationSpan := by
  refine (State.rotate_skips 11 h hp).trans (State.rotate_enough ?_).symm
  rw [State.line_modLine_self]
  have h1 := Line.ahead_advance hp
  have h2 := (s.line n).ahead_le
  omega

/-- Settles O43: the events by the phase of the turn, the next turn by quiet pending and attention, and the
rotation by its next position, of which those ahead always suffice. -/
theorem turnPhases : Obligations.TurnPhases := by
  unfold Obligations.TurnPhases
  refine ⟨fun s n h => ?_, fun s n => ?_⟩
  · intro phase
    have other {p : Phase} (hp : ¬phase p) : ∀ u, (s.line n).turn = some u → u.phase ≠ p :=
      fun u hu he => hp ⟨u, hu, he⟩
    exact ⟨fun u hu => ⟨execPollEnd_sending h hu,
        fun hp => ⟨execAnswerStart_window h hu hp, execMiss_window h hu hp⟩,
        fun hp => ⟨execDamagedAnswer_receiving h hu hp, execDamagedAnswer_receiving h hu hp⟩⟩,
      fun hp => execPollEnd_other (other hp),
      fun hp => ⟨execAnswerStart_other (other hp), execMiss_other (other hp)⟩,
      fun hp => ⟨execDamagedAnswer_other (other hp), execDamagedAnswer_other (other hp),
        execGoodAnswer_other (other hp)⟩⟩
  · intro x put offline resume
    refine ⟨rfl, fun hq => ?_, fun hq ha => State.nextTurn_inactive hq ha,
      fun from_ hq ha => ⟨fun d hf hd hb => ?_, fun hall => ?_⟩, ?_⟩
    · exact (State.nextTurn_quiet hq).trans (s.enterQuiet_eq n)
    · rw [State.nextTurn_attends hq ha, State.attend_serves hf hd hb]
      rfl
    · rw [State.nextTurn_attends hq ha, State.attend_ends hall]
      rfl
    · intro due advanced
      have advance (due : Bool) : (s.line n).advance due = advanced (x.roundServed || due) := rfl
      refine ⟨fun hdue => ?_, fun hdue hp hs => ?_, fun hdue hp => ?_⟩
      · refine (State.rotate_due 11 hdue).trans ?_
        rw [State.modLine_eq, advance true, Bool.or_true]
      · refine (State.rotate_idles 11 hdue hp hs).trans ?_
        have hadv : (s.line n).advance false = advanced false := by rw [advance false, hs]; rfl
        exact congrArg (fun y => put { y with idleWait := true }) hadv
      · refine (State.rotate_passes hdue hp).trans ?_
        rw [State.modLine_eq, advance false, Bool.or_false]

end Sys2Proof.Machine
end

section
/-! PROOFS. GOOD_ANSWER (R126 to R128, R132). -/

namespace Sys2Proof.Machine

theorem Line.countStrays_eq (k : Nat) (x : Line) :
    x.countStrays k =
      { x with counters := { x.counters with strays := min (x.counters.strays + k) 65535 } } := rfl

/-! ## The answer taken (R127, R128) -/

section
variable {s : State} {n : LineIx} {u : Turn} {a : GoodAnswer}

theorem State.takeAnswer_nil (h : a.frame = none) :
    s.takeAnswer n u a =
      { s with floor := s.floor.modLane (laneOf n u.drop) (fun x => { x with echo := some a.echo }) } := by
  simp only [State.takeAnswer, h]

theorem State.takeAnswer_frame {raw : RawFrame} {b : BufId} (h : a.frame = some raw)
    (hb : (s.line n).slot = some b) :
    s.takeAnswer n u a =
      State.modLine
        { s with
            floor := (s.floor.modLane (laneOf n u.drop) (fun x => { x with echo := some a.echo })).intake
              s.env (laneOf n u.drop) raw b } n (fun x => { x with slot := none }) := by
  unfold State.takeAnswer
  simp only [h]
  split
  · rename_i c hc
    obtain rfl : b = c := Option.some.inj (hb.symm.trans hc)
    rfl
  · rename_i hc
    exact absurd (hb.symm.trans hc) (by simp)

theorem State.takeAnswer_standby {raw : RawFrame} (h : a.frame = some raw)
    (hb : (s.line n).slot = none) :
    s.takeAnswer n u a =
      State.modLine
        { s with
            floor := s.floor.modLane (laneOf n u.drop) (fun x => { x with echo := some a.echo }) } n
        (fun x => { x with counters :=
          { x.counters with standbyFrames := min (x.counters.standbyFrames + 1) 65535 } }) := by
  unfold State.takeAnswer
  simp only [h]
  split
  · rename_i c hc
    exact absurd (hb.symm.trans hc) (by simp)
  · rfl

end

/-! ## The end of a turn with an answer (R126, R127, R132) -/

section
variable {s : State} {n : LineIx} {u : Turn} {cs : List RxChar} (h : s.held = none)
  (hu : (s.line n).turn = some u) (hp : u.phase = .receiving)
include h hu hp

theorem execGoodAnswer_damaged (hr : (receiveAnswer u.drop cs).1 = none) :
    execGoodAnswer n cs s = .next (((s.judgeDrop n u.drop .damaged).modLine n
      (Line.countStrays (receiveAnswer u.drop cs).2.length)).endTurn n) := by
  unfold execGoodAnswer
  rw [whenPhase_in h hu hp]
  simp only [hr]

theorem execGoodAnswer_good {a : GoodAnswer} (hr : (receiveAnswer u.drop cs).1 = some a) :
    execGoodAnswer n cs s = .next ((((s.judgeDrop n u.drop (.good a.noisy)).takeAnswer n u a).modLine n
      (Line.countStrays (receiveAnswer u.drop cs).2.length)).endTurn n) := by
  unfold execGoodAnswer
  rw [whenPhase_in h hu hp]
  simp only [hr]

end

/-- Settles O44, by what the characters make: damage, a NIL, or a frame with or without a buffer. -/
theorem goodAnswers : Obligations.GoodAnswers := by
  unfold Obligations.GoodAnswers
  intro s n cs u h hu hp rest ends strays
  refine ⟨fun hr => execGoodAnswer_damaged h hu hp hr, fun a hr => ?_⟩
  have good := execGoodAnswer_good h hu hp hr
  intro l t f x
  refine ⟨fun hf => ?_, fun raw b hf hb => ?_, fun raw hf hb => ?_⟩
  · rw [State.takeAnswer_nil hf] at good
    exact good
  · rw [State.takeAnswer_frame hf hb, State.modLine_modLine] at good
    exact good
  · rw [State.takeAnswer_standby hf hb, State.modLine_modLine] at good
    exact good

end Sys2Proof.Machine
end

section
/-! PROOFS. BREAK, STRAY, IDLE_ROUND_END and WAKE_SETTLE_EXPIRY (R119, R122, R131, R132, R134). -/

namespace Sys2Proof.Machine

/-! ## Breaks (R119, R131, R134) -/

theorem Line.broken_eq (x : Line) :
    x.broken =
      if x.attention = .inactive then
        { x with attention := .due, quietPending := false
                 counters := { x.counters with breaks := min (x.counters.breaks + 1) 65535 } }
      else
        { x with quietPending := false
                 counters :=
                   { x.counters with ignoredBreaks := min (x.counters.ignoredBreaks + 1) 65535 } } := by
  unfold Line.broken
  cases h : x.attention <;> rfl

theorem Line.brokenQuiet_eq {x : Line} (h : x.state = .quiet) :
    x.brokenQuiet =
      { x with state := .waking, settle := some 2
               counters := { x.counters with breaks := min (x.counters.breaks + 1) 65535 } } := by
  unfold Line.brokenQuiet
  exact Line.wake_quiet h

section
variable {s : State} {n : LineIx}

theorem State.breakActive_between (ht : (s.line n).turn = none) :
    s.breakActive n = ((s.modLine n Line.broken).nextTurn n).arbiter := by
  simp only [State.breakActive, ht]

theorem State.breakActive_sending {u : Turn} (ht : (s.line n).turn = some u)
    (hp : u.phase = .sending) : s.breakActive n = s := by
  simp only [State.breakActive, ht, hp]

theorem State.breakActive_answering {u : Turn} (ht : (s.line n).turn = some u)
    (hp : u.phase ≠ .sending) :
    s.breakActive n = ((s.modLine n Line.broken).judgeDrop n u.drop .damaged).endTurn n := by
  simp only [State.breakActive, ht]
  cases hph : u.phase with
  | sending => exact absurd hph hp
  | window => rfl
  | receiving => rfl

variable (h : s.held = none)
include h

theorem execLineBreak_quiet (hs : (s.line n).state = .quiet) :
    execLineBreak n s = .next (s.modLine n Line.brokenQuiet) := by
  simp only [execLineBreak, whenRunning_free h, hs]

theorem execLineBreak_waking (hs : (s.line n).state = .waking) : execLineBreak n s = .next s := by
  simp only [execLineBreak, whenRunning_free h, hs]

theorem execLineBreak_active (hs : (s.line n).state = .active) :
    execLineBreak n s = .next (s.breakActive n) := by
  simp only [execLineBreak, whenRunning_free h, hs]

/-! ## Strays, idle rounds and the settle timer (R122, R132, R134) -/

/-- A character is counted where no answer of the line is expected and the start bit holds (R132). -/
theorem execStray_eq (c : RxChar) :
    execStray n c s = .next
      (if (∃ u, (s.line n).turn = some u ∧ u.phase ≠ .sending) ∨ rxFalseStart c = true then s
       else s.modLine n (Line.countStrays 1)) := by
  unfold execStray
  rw [whenRunning_free h]
  cases (s.line n).turn <;> simp

theorem execIdleRoundEnd_waiting (hw : (s.line n).idleWait = true) :
    execIdleRoundEnd n s =
      .next (((s.modLine n (fun x => { x with idleWait := false })).nextTurn n).arbiter) := by
  simp only [execIdleRoundEnd, whenRunning_free h, hw, if_true]

theorem execIdleRoundEnd_none (hw : (s.line n).idleWait = false) : execIdleRoundEnd n s = .next s := by
  simp [execIdleRoundEnd, whenRunning_free h, hw]

theorem execWakeSettleExpiry_due (hd : (s.line n).settle = some 0) :
    execWakeSettleExpiry n s =
      .next ((((s.prepareLine n).modLine n Line.awake).settle.nextTurn n).arbiter) := by
  simp [execWakeSettleExpiry, whenRunning_free h, (timerDue_iff _).2 hd]

theorem execWakeSettleExpiry_early (hd : (s.line n).settle ≠ some 0) :
    execWakeSettleExpiry n s = .next s := by
  simp [execWakeSettleExpiry, whenRunning_free h, Bool.eq_false_iff.2 (mt (timerDue_iff _).1 hd)]

end

/-! ## The preparation of a line (R134) -/

/-- A lane when the settle timer of its line expires (R134). -/
def Lane.prepared (x : Lane) : Lane :=
  { x with drop := x.drop.woken, echo := none, lastDirect := none }

theorem DropLink.woken_eq (d : DropLink) :
    d.woken = if d.link = .offline then { d with lastSeq := none }
      else { d with link := .online, misses := 0, lastSeq := none } := by
  unfold DropLink.woken
  cases h : d.link <;> simp

/-- One drop of a line prepared for polling (R134). -/
def State.prepareDrop (n : LineIx) (s : State) (d : DropIx) : State :=
  let t := { s with floor := s.floor.modLane (laneOf n d) Lane.prepared }
  if (s.floor.lane (laneOf n d)).drop.link = .silent then t.flagLine (laneOf n d) else t

theorem State.prepareLine_eq (s : State) (n : LineIx) :
    s.prepareLine n = allDrops.foldl (State.prepareDrop n) s := rfl

theorem laneOf_inj {n : LineIx} {d e : DropIx} (h : laneOf n d = laneOf n e) : d = e := by
  have hv : n.1 * 6 + d.1 = n.1 * 6 + e.1 := congrArg Fin.val h
  exact Fin.ext (by omega)

theorem allDrops_nodup : allDrops.Nodup := List.nodup_finRange 6

/-- The lanes of a line are those of its drops. -/
theorem lineOf_eq_iff (n : LineIx) (l : LaneIx) :
    lineOf l = n ↔ ∃ d ∈ allDrops, l = laneOf n d := by
  constructor
  · rintro rfl
    refine ⟨⟨l.1 % 6, by omega⟩, List.mem_finRange _, Fin.ext ?_⟩
    simp only [lineOf, laneOf]
    omega
  · rintro ⟨d, -, rfl⟩
    refine Fin.ext ?_
    simp only [lineOf, laneOf]
    omega

section
variable (s : State) (n : LineIx) (l : LaneIx)

theorem State.prepareDrop_floor (d : DropIx) :
    (s.prepareDrop n d).floor = s.floor.modLane (laneOf n d) Lane.prepared := by
  unfold State.prepareDrop
  dsimp only
  split <;> rfl

theorem State.prepareDrop_line (d : DropIx) :
    hasLane (s.prepareDrop n d).notices.line l = true ↔
      hasLane s.notices.line l = true ∨
        (l = laneOf n d ∧ (s.floor.lane (laneOf n d)).drop.link = .silent) := by
  unfold State.prepareDrop
  dsimp only
  split
  · rename_i hs
    simp [hasLane_addLane, hs]
  · rename_i hs
    simp [hs]

theorem State.lane_prepareDrop_ne {d : DropIx} (h : l ≠ laneOf n d) :
    (s.prepareDrop n d).floor.lane l = s.floor.lane l := by
  rw [State.prepareDrop_floor]
  exact Floor.lane_modLane_ne _ _ _ _ h

/-- Some drops of a line prepared, each once: their lanes, and no others. -/
theorem State.lane_prepareDrops (ds : List DropIx) (hn : ds.Nodup) :
    (ds.foldl (State.prepareDrop n) s).floor.lane l =
      if ∃ d ∈ ds, l = laneOf n d then (s.floor.lane l).prepared else s.floor.lane l := by
  induction ds generalizing s with
  | nil => simp
  | cons d ds ih =>
    obtain ⟨hd, hn⟩ := List.nodup_cons.1 hn
    rw [List.foldl_cons, ih _ hn]
    by_cases hl : l = laneOf n d
    · have hlater : ¬∃ e ∈ ds, l = laneOf n e := by
        rintro ⟨e, he, hle⟩
        exact hd (laneOf_inj (hl.symm.trans hle) ▸ he)
      rw [if_neg hlater, if_pos ⟨d, List.mem_cons_self, hl⟩, State.prepareDrop_floor, hl,
        Floor.lane_modLane_self]
    · simp [State.lane_prepareDrop_ne s n l hl, hl]

/-- Some drops of a line prepared, each once: the flags of those that were SILENT are set. -/
theorem State.line_prepareDrops (ds : List DropIx) (hn : ds.Nodup) :
    hasLane (ds.foldl (State.prepareDrop n) s).notices.line l = true ↔
      hasLane s.notices.line l = true ∨
        ((∃ d ∈ ds, l = laneOf n d) ∧ (s.floor.lane l).drop.link = .silent) := by
  induction ds generalizing s with
  | nil => simp
  | cons d ds ih =>
    obtain ⟨hd, hn⟩ := List.nodup_cons.1 hn
    rw [List.foldl_cons, ih _ hn, State.prepareDrop_line]
    by_cases hl : l = laneOf n d
    · have hlater : ¬∃ e ∈ ds, l = laneOf n e := by
        rintro ⟨e, he, hle⟩
        exact hd (laneOf_inj (hl.symm.trans hle) ▸ he)
      simp [hlater, ← hl]
    · simp [State.lane_prepareDrop_ne s n l hl, hl]

/-- The preparation of drops changes lanes and LINE flags alone. -/
theorem State.prepareDrops_frame (ds : List DropIx) :
    let t := ds.foldl (State.prepareDrop n) s
    t = { s with floor := { s.floor with lanes := t.floor.lanes }
                 notices := { s.notices with line := t.notices.line } } := by
  have keeps : ∃ lanes line, ds.foldl (State.prepareDrop n) s =
      { s with floor := { s.floor with lanes := lanes }, notices := { s.notices with line := line } } := by
    refine foldl_keeps (P := fun t => ∃ lanes line, t =
      { s with floor := { s.floor with lanes := lanes }, notices := { s.notices with line := line } })
      ?_ ds s ⟨_, _, rfl⟩
    rintro _ d ⟨lanes, line, rfl⟩
    unfold State.prepareDrop
    dsimp only
    split <;> exact ⟨_, _, rfl⟩
  obtain ⟨lanes, line, ht⟩ := keeps
  dsimp only
  rw [ht]

end

theorem State.prepareLine_frame (s : State) (n : LineIx) :
    s.prepareLine n =
      { s with floor := { s.floor with lanes := (s.prepareLine n).floor.lanes }
               notices := { s.notices with line := (s.prepareLine n).notices.line } } := by
  rw [State.prepareLine_eq]
  exact State.prepareDrops_frame s n allDrops

theorem State.lane_prepareLine (s : State) (n : LineIx) (l : LaneIx) :
    (s.prepareLine n).floor.lane l =
      if lineOf l = n then (s.floor.lane l).prepared else s.floor.lane l := by
  rw [State.prepareLine_eq, State.lane_prepareDrops _ _ _ _ allDrops_nodup]
  simp only [lineOf_eq_iff]

theorem State.line_prepareLine (s : State) (n : LineIx) (l : LaneIx) :
    hasLane (s.prepareLine n).notices.line l = true ↔
      hasLane s.notices.line l = true ∨
        (lineOf l = n ∧ (s.floor.lane l).drop.link = .silent) := by
  rw [State.prepareLine_eq, State.line_prepareDrops _ _ _ _ allDrops_nodup, lineOf_eq_iff]

/-- Settles O45, by the state of the line, and drop by drop for its preparation. -/
theorem lineEvents : Obligations.LineEvents := by
  unfold Obligations.LineEvents
  intro s n h x put breaks ignored broken
  have hbroken : s.modLine n Line.broken = broken := congrArg put (Line.broken_eq x)
  refine ⟨fun hq => ?_, execLineBreak_waking h, fun ha ht => ?_, fun u ha ht => ⟨fun hp => ?_,
    fun hp => ?_⟩, fun c => ?_, execIdleRoundEnd_waiting h, execIdleRoundEnd_none h,
    execWakeSettleExpiry_due h, execWakeSettleExpiry_early h,
    State.prepareLine_frame s n, fun l => ⟨State.line_prepareLine s n l, ?_⟩⟩
  · exact (execLineBreak_quiet h hq).trans (congrArg (fun y => Host.Outcome.next (put y))
      (Line.brokenQuiet_eq hq))
  · refine (execLineBreak_active h ha).trans ?_
    rw [State.breakActive_between ht, hbroken]
  · exact (execLineBreak_active h ha).trans (congrArg _ (State.breakActive_sending ht hp))
  · refine (execLineBreak_active h ha).trans ?_
    rw [State.breakActive_answering ht hp, hbroken]
  · intro expected
    refine ⟨fun he hc => (execStray_eq h c).trans ?_, fun he => (execStray_eq h c).trans ?_⟩
    · rw [if_neg (not_or.2 ⟨he, by simp [hc]⟩)]
      rfl
    · rw [if_pos he]
  · rw [State.lane_prepareLine]
    unfold Lane.prepared
    rw [DropLink.woken_eq]

end Sys2Proof.Machine
end

section
/-! PROOFS. The start of a turn: the buffer, the DIRECT and the POLL (R118, R123 to R125, R153, R193). -/

namespace Sys2Proof.Machine

/-! ## The characters of DIRECT and POLL (R118, R193, 11.1) -/

theorem wordChar_bits (w : DirectiveWord) :
    wordChar w =
      (0 : BitVec 2) ++ w.gen ++ BitVec.ofBool w.pause ++ BitVec.ofNat 2 w.lamp.code := by
  obtain ⟨lamp, pause, message, gen⟩ := w
  show BitVec.ofNat 8 (lamp.code + (if pause then 4 else 0) + 8 * gen.toNat) =
    (0 : BitVec 2) ++ gen ++ BitVec.ofBool pause ++ BitVec.ofNat 2 lamp.code
  revert gen
  cases lamp <;> cases pause <;> decide

theorem addressChar_bits (d : DropIx) (code : BitVec 5) :
    addressChar d code = code ++ BitVec.ofNat 3 d.1 := by
  have hd : BitVec.ofFin (w := 3) ⟨d.1, by omega⟩ = BitVec.ofNat 3 d.1 := by
    revert d
    decide
  unfold addressChar
  rw [hd]

theorem controlChar_bits (ack : Option Seq) (standby : Bool) :
    controlChar ack standby = (0 : BitVec 3) ++ BitVec.ofBool standby ++
      (match ack with
        | none => (8 : BitVec 4)
        | some q => (0 : BitVec 1) ++ q) := by
  cases ack with
  | none => cases standby <;> rfl
  | some q =>
    revert q
    cases standby <;> decide

/-- A line character has an odd number of marks among its data, marker and parity bits (R118). -/
theorem lineChar_oddMarks (b : Byte) (marker : Bool) :
    ((List.range 10).filter (fun i => (lineChar b marker).getLsbD (i + 1))).length % 2 = 1 := by
  revert b marker
  decide +kernel

theorem lineChar_data (b : Byte) (marker : Bool) :
    ∀ i, i < 8 → (lineChar b marker).getLsbD (i + 1) = b.getLsbD i := by
  intro i hi
  have h := congrArg (fun c => c.getLsbD i) (lineChar_fields b marker).1
  simpa [BitVec.getLsbD_extractLsb', hi, Nat.add_comm] using h

/-! ## The claim of a buffer (R123, R151, R153) -/

section
variable {s : State} {n : LineIx}

/-- The claim of the buffer at the head of the free list; where it empties the list it counts and sets the
PART flag. -/
theorem State.claim_takes {b : BufId} {rest : List BufId} (h : (s.line n).slot = none)
    (hf : s.floor.free = b :: rest) :
    s.claim n =
      { s with
          floor := { s.floor with free := rest }
          lines := upd s.lines n { s.line n with slot := some b }
          poolEmpty := if rest = [] then min (s.poolEmpty + 1) 65535 else s.poolEmpty
          notices := if rest = [] then { s.notices with part := true } else s.notices } := by
  simp only [State.claim, h, hf]
  cases rest with
  | nil => rfl
  | cons c cs => rfl

/-- A claim changes nothing of the floor but the free list. -/
theorem State.claim_floor (s : State) (n : LineIx) :
    (s.claim n).floor = { s.floor with free := (s.claim n).floor.free } := by
  cases hb : (s.line n).slot with
  | some b => rw [State.claim_held hb]
  | none =>
    cases hf : s.floor.free with
    | nil => rw [State.claim_empty hb hf]
    | cons b rest => rw [State.claim_takes hb hf]

theorem State.lane_claim (s : State) (n : LineIx) (l : LaneIx) :
    (s.claim n).floor.lane l = s.floor.lane l :=
  Floor.lane_congr (by rw [State.claim_floor]) l

end

/-! ## The turn (R123 to R125) -/

/-- A lane left as it is. -/
theorem Floor.modLane_same {f : Floor} {l : LaneIx} {g : Lane → Lane}
    (h : g (f.lane l) = f.lane l) : f.modLane l g = f := by
  unfold Floor.modLane
  rw [h]
  exact congrArg (fun v => { f with lanes := v }) (upd_get ..)

/-- A lane whose DIRECT is sent where its echo is stale (R124). -/
def Lane.directed (x : Lane) : Lane :=
  { x with lastDirect := if x.echo ≠ some x.word.gen then some x.word.gen else x.lastDirect }

/-- The turn that begins for a drop of a lane, with its DIRECT where the echo is stale (R124, R125). -/
def Lane.firstPhase (d : DropIx) (standby : Bool) (x : Lane) : Turn :=
  { drop := d, phase := .sending, standby := standby
    direct := if x.echo ≠ some x.word.gen then directChars d x.word else []
    poll := pollChars d x.drop.lastSeq standby }

/-- A turn begins on what its claim leaves: the lane's last DIRECT, the turn and the STANDBY count. -/
theorem State.startTurn_eq (s : State) (n : LineIx) (d : DropIx) :
    let t := s.claim n
    let x := s.floor.lane (laneOf n d)
    let standby := (t.line n).slot.isNone
    s.startTurn n d =
      { t with
          floor := t.floor.modLane (laneOf n d) Lane.directed
          lines := upd t.lines n
            { t.line n with
                turn := some (x.firstPhase d standby)
                counters := if standby then
                    { (t.line n).counters with
                        standbyPolls := min ((t.line n).counters.standbyPolls + 1) 65535 }
                  else (t.line n).counters } } := by
  intro t x standby
  have hc : (s.claim n).floor.lane (laneOf n d) = x := s.lane_claim n _
  have hx : t.floor.lane (laneOf n d) = x := hc
  unfold State.startTurn
  dsimp only
  rw [hc]
  by_cases hs : x.echo ≠ some x.word.gen
  · have hsent : Lane.directed x = { x with lastDirect := some x.word.gen } := by
      unfold Lane.directed
      rw [if_pos hs]
    simp only [hc, hx, if_pos hs, Lane.firstPhase, Floor.modLane, hsent]
    rfl
  · have hkept : Lane.directed (t.floor.lane (laneOf n d)) = t.floor.lane (laneOf n d) := by
      rw [hx]
      unfold Lane.directed
      rw [if_neg hs]
    rw [Floor.modLane_same hkept]
    simp only [if_neg hs, Lane.firstPhase]
    rfl

theorem State.lane_startTurn_self (s : State) (n : LineIx) (d : DropIx) :
    (s.startTurn n d).floor.lane (laneOf n d) = (s.floor.lane (laneOf n d)).directed := by
  rw [State.startTurn_eq, ← State.lane_claim s n]
  exact Floor.lane_modLane_self ..

theorem State.lane_startTurn_ne (s : State) (n : LineIx) (d : DropIx) {k : LaneIx}
    (h : k ≠ laneOf n d) : (s.startTurn n d).floor.lane k = s.floor.lane k := by
  rw [State.startTurn_eq]
  exact (Floor.lane_modLane_ne _ _ _ _ h).trans (s.lane_claim n k)

section
variable {s : State} {n : LineIx} (d : DropIx)

theorem State.startTurn_held {b : BufId} (h : (s.line n).slot = some b) :
    s.startTurn n d =
      { s with
          floor := s.floor.modLane (laneOf n d) Lane.directed
          lines := upd s.lines n
            { s.line n with turn := some ((s.floor.lane (laneOf n d)).firstPhase d false) } } := by
  rw [State.startTurn_eq, State.claim_held h]
  simp only [h]
  rfl

theorem State.startTurn_claims {b : BufId} {rest : List BufId} (h : (s.line n).slot = none)
    (hf : s.floor.free = b :: rest) :
    s.startTurn n d =
      { s with
          floor := { s.floor.modLane (laneOf n d) Lane.directed with free := rest }
          lines := upd s.lines n
            { s.line n with turn := some ((s.floor.lane (laneOf n d)).firstPhase d false)
                            slot := some b }
          poolEmpty := if rest = [] then min (s.poolEmpty + 1) 65535 else s.poolEmpty
          notices := if rest = [] then { s.notices with part := true } else s.notices } := by
  have hline : (s.claim n).line n = { s.line n with slot := some b } := by
    rw [State.claim_takes h hf]
    exact upd_get_self ..
  rw [State.startTurn_eq]
  dsimp only
  rw [hline, State.claim_takes h hf]
  dsimp only
  rw [upd_upd]
  rfl

theorem State.startTurn_standby (h : (s.line n).slot = none) (hf : s.floor.free = []) :
    s.startTurn n d =
      { s with
          floor := s.floor.modLane (laneOf n d) Lane.directed
          lines := upd s.lines n
            { s.line n with
                turn := some ((s.floor.lane (laneOf n d)).firstPhase d true)
                counters := { (s.line n).counters with
                  standbyPolls := min ((s.line n).counters.standbyPolls + 1) 65535 } } } := by
  rw [State.startTurn_eq, State.claim_empty h hf]
  simp only [h]
  rfl

end

/-- Settles O46: the characters field by field, and the turn by what its claim finds. -/
theorem turnBegins : Obligations.TurnBegins := by
  unfold Obligations.TurnBegins
  refine ⟨fun d w => ⟨wordChar_bits w, ?_⟩, fun d ack standby => ?_, fun b marker => ?_,
    ⟨rfl, crc8_concat⟩, fun s n d => ?_⟩
  · unfold directChars lineMessage
    rw [addressChar_bits]
    rfl
  · unfold pollChars lineMessage
    rw [addressChar_bits, controlChar_bits]
    rfl
  · obtain ⟨_, hstart, hstop, hmark, _⟩ := lineChar_fields b marker
    exact ⟨hstart, lineChar_data b marker, hmark, lineChar_oddMarks b marker, hstop⟩
  · intro t l x stale counters turn
    refine ⟨?_, fun k => ?_, fun b hb => ?_, fun b rest hb hf => ?_, fun hb hf => ?_⟩
    · have hfloor : t.floor = (s.claim n).floor.modLane l Lane.directed :=
        congrArg State.floor (s.startTurn_eq n d)
      rw [hfloor, State.claim_floor]
      rfl
    · by_cases hk : k = l
      · subst hk
        simp only [true_and]
        exact s.lane_startTurn_self n d
      · rw [if_neg (fun h => hk h.1)]
        exact s.lane_startTurn_ne n d hk
    · have ht : t = _ := State.startTurn_held d hb
      rw [ht]
      exact ⟨upd_get_self .., rfl, rfl, rfl⟩
    · have ht : t = _ := State.startTurn_claims d hb hf
      rw [ht]
      exact ⟨upd_get_self .., rfl, fun hr => ⟨if_neg hr, if_neg hr⟩, fun hr => ⟨if_pos hr, if_pos hr⟩⟩
    · have ht : t = _ := State.startTurn_standby d hb hf
      rw [ht]
      exact ⟨upd_get_self .., hf, rfl, rfl⟩

end Sys2Proof.Machine
end

section
/-! PROOFS. POWER_ON and the RESET pin (R123 to R125, R138, R191). -/

namespace Sys2Proof.Machine

/-! ## The first turn of a line (R138) -/

/-- The turn a line of a part just reset begins with: drop 0, a DIRECT of the reset word and a POLL that
acknowledges none. -/
def firstTurn : Turn :=
  { drop := 0, phase := .sending, standby := false
    direct := directChars 0 { lamp := .off, pause := false, message := .laneClosed, gen := 0 }
    poll := pollChars 0 none false }

section
variable {s : State} {n : LineIx}

theorem State.nextTurn_fresh (hn : s.line n = {}) :
    s.nextTurn n =
      (s.modLine n (fun x => { x with pos := 1, roundServed := true })).startTurn n 0 := by
  have hdue : s.dropDue n := .inr (by rw [hn])
  rw [State.nextTurn_inactive (by rw [hn]) (by rw [hn])]
  unfold State.resume
  rw [hn]
  refine (State.rotate_due 11 hdue).trans ?_
  rw [hn, State.modLine_eq, State.modLine_eq, hn]
  rfl

/-- The first turn of a line takes the head of the free list, which it does not empty. -/
theorem State.nextTurn_first {b : BufId} {rest : List BufId} (hn : s.line n = {})
    (hl : s.floor.lane (laneOf n 0) = {}) (hf : s.floor.free = b :: rest) (hr : rest ≠ []) :
    s.nextTurn n =
      { s with
          floor := { s.floor.modLane (laneOf n 0) (fun x => { x with lastDirect := some 0 }) with
            free := rest }
          lines := upd s.lines n
            { pos := 1, roundServed := true, slot := some b, turn := some firstTurn } } := by
  have hline : (s.modLine n (fun x => { x with pos := 1, roundServed := true })).line n =
      { pos := 1, roundServed := true } := by
    rw [State.line_modLine_self, hn]
  have hturn := State.startTurn_claims
    (s := s.modLine n (fun x => { x with pos := 1, roundServed := true })) 0 (by rw [hline]) hf
  rw [State.nextTurn_fresh hn, hturn, if_neg hr, if_neg hr, hline]
  dsimp only
  rw [State.modLine_floor, hl, State.modLine_lines, upd_upd]
  unfold Floor.modLane
  rw [hl]
  rfl

end

/-! ## The first turns (R138, log 22) -/

/-- What the first turns of some lines `ns` make of a state: each takes the next buffer of `bs` from the free
list, of which `rest` is left, and sends its drop 0 a DIRECT. -/
structure State.FirstTurns (ns : List LineIx) (bs rest : List BufId) (s t : State) : Prop where
  frame : t = { s with floor := { s.floor with lanes := t.floor.lanes, free := rest }, lines := t.lines }
  lane : ∀ l, t.floor.lane l =
    if ∃ n ∈ ns, l = laneOf n 0 then { s.floor.lane l with lastDirect := some 0 } else s.floor.lane l
  line : ∀ n b, (n, b) ∈ ns.zip bs → t.line n =
    { pos := 1, roundServed := true, slot := some b, turn := some firstTurn }
  other : ∀ n, n ∉ ns → t.line n = s.line n

theorem laneOf_line_inj {n m : LineIx} {d e : DropIx} (h : laneOf n d = laneOf m e) : n = m := by
  have hv : n.1 * 6 + d.1 = m.1 * 6 + e.1 := congrArg Fin.val h
  exact Fin.ext (by omega)

/-- The first turn of one fresh line. -/
theorem State.firstTurns_one {s : State} {n : LineIx} {b : BufId} {rest : List BufId}
    (hn : s.line n = {}) (hl : s.floor.lane (laneOf n 0) = {}) (hf : s.floor.free = b :: rest)
    (hr : rest ≠ []) : State.FirstTurns [n] [b] rest s (s.nextTurn n) := by
  have hfirst := State.nextTurn_first hn hl hf hr
  have hlanes : (s.nextTurn n).floor.lanes =
      (s.floor.modLane (laneOf n 0) (fun x => { x with lastDirect := some 0 })).lanes := by
    rw [hfirst]
  refine ⟨by rw [hfirst]; rfl, fun l => ?_, fun m c hm => ?_, fun m hm => ?_⟩
  · rw [Floor.lane_congr hlanes]
    by_cases hl : l = laneOf n 0
    · rw [if_pos ⟨n, List.mem_singleton_self n, hl⟩, hl]
      exact Floor.lane_modLane_self ..
    · simp [hl, Floor.lane_modLane_ne]
  · obtain ⟨rfl, rfl⟩ : m = n ∧ c = b := by simpa using hm
    rw [hfirst]
    exact upd_get_self ..
  · rw [hfirst]
    exact upd_get_ne _ _ _ _ (by simpa using hm)

/-- A first turn, and then those of other lines. -/
theorem State.FirstTurns.cons {n : LineIx} {ns : List LineIx} {b : BufId} {bs rest : List BufId}
    {s u t : State} (hn : n ∉ ns) (first : State.FirstTurns [n] [b] (bs ++ rest) s u)
    (later : State.FirstTurns ns bs rest u t) :
    State.FirstTurns (n :: ns) (b :: bs) rest s t := by
  refine ⟨?_, fun l => ?_, fun m c hm => ?_, fun m hm => ?_⟩
  · refine later.frame.trans ?_
    rw [first.frame]
  · rw [later.lane, first.lane]
    by_cases hl : l = laneOf n 0
    · have hnone : ¬∃ m ∈ ns, l = laneOf m 0 := by
        rintro ⟨m, hm, hlm⟩
        exact hn (laneOf_line_inj (hl.symm.trans hlm) ▸ hm)
      rw [if_neg hnone]
      simp [hl]
    · simp [hl]
  · obtain hm | hm := List.mem_cons.1 hm
    · obtain ⟨rfl, rfl⟩ := Prod.mk.inj hm
      rw [later.other m hn]
      exact first.line m c (by simp)
    · exact later.line m c hm
  · obtain ⟨hmn, hm⟩ := not_or.1 (mt List.mem_cons.2 hm)
    exact (later.other m hm).trans (first.other m (by simpa using hmn))

/-- Fresh lines take their first turns one after another, as long as buffers remain. -/
theorem State.firstTurns_foldl (ns : List LineIx) (bs rest : List BufId) (s : State)
    (hns : ns.Nodup) (hlen : bs.length = ns.length) (hr : rest ≠ [])
    (hf : s.floor.free = bs ++ rest)
    (hfresh : ∀ n ∈ ns, s.line n = {} ∧ s.floor.lane (laneOf n 0) = {}) :
    State.FirstTurns ns bs rest s (ns.foldl State.nextTurn s) := by
  induction ns generalizing bs s with
  | nil =>
    obtain rfl := List.length_eq_zero_iff.1 hlen
    have hrest : s.floor.free = rest := hf
    refine ⟨?_, fun l => by simp, fun n b h => by simp at h, fun n _ => rfl⟩
    rw [← hrest]
    rfl
  | cons n ns ih =>
    obtain _ | ⟨b, bs⟩ := bs
    · simp at hlen
    obtain ⟨hn, hns⟩ := List.nodup_cons.1 hns
    obtain ⟨hline, hlane⟩ := hfresh n List.mem_cons_self
    have first := State.firstTurns_one hline hlane hf (by simp [hr])
    refine first.cons hn (ih bs _ hns (by simpa using hlen) (by rw [first.frame]; rfl)
      fun m hm => ?_)
    have hne : m ≠ n := fun h => hn (h ▸ hm)
    have hlane : ¬∃ k ∈ [n], laneOf m 0 = laneOf k 0 := by
      rintro ⟨k, hk, hmk⟩
      exact hne ((laneOf_line_inj hmk).trans (List.mem_singleton.1 hk))
    rw [first.other m (by simpa using hne), first.lane, if_neg hlane]
    exact hfresh m (List.mem_cons_of_mem _ hm)

/-- The lines of a part just reset take their first turns (R138). -/
theorem State.beginLines_reset {s : State} (hf : s.floor = State.reset.floor)
    (hl : s.lines = State.reset.lines) :
    State.FirstTurns allLines [0, 1, 2, 3] ((List.finRange 64).drop 4) s s.beginLines := by
  refine State.firstTurns_foldl allLines _ _ s (List.nodup_finRange 4) rfl (by decide) ?_
    fun n _ => ⟨?_, ?_⟩
  · rw [hf]
    decide
  · unfold State.line
    rw [hl]
    exact State.reset_line n
  · rw [hf]
    exact State.reset_lane _

/-- Drop 0 of a line is a lane whose number is a multiple of 6. -/
theorem exists_laneOf_zero (l : LaneIx) : (∃ n ∈ allLines, l = laneOf n 0) ↔ l.1 % 6 = 0 := by
  revert l
  decide

theorem mem_zip_allLines (n : LineIx) :
    (n, (⟨n.1, by omega⟩ : BufId)) ∈ allLines.zip [0, 1, 2, 3] := by
  revert n
  decide

/-- POWER_ON with the pin high: the reset values, then the first turns (R191). -/
theorem execPowerOn_high (s : State) :
    execPowerOn false s = .next (State.arbiter (State.beginLines
      { State.reset with freeCount := s.freeCount, pending := s.pending })) := by
  simp only [execPowerOn, Bool.false_eq_true, if_false]

/-! ## The RESET pin (R191) -/

theorem State.idleLines_frame (s : State) (ns : List LineIx) :
    let t := ns.foldl (fun s n => s.modLine n Line.idle) s
    t = { s with lines := t.lines } := by
  have keeps : ∃ lines, ns.foldl (fun s n => s.modLine n Line.idle) s = { s with lines := lines } := by
    refine foldl_keeps (P := fun t => ∃ lines, t = { s with lines := lines }) ?_ ns s ⟨_, rfl⟩
    rintro _ n ⟨lines, rfl⟩
    exact ⟨_, rfl⟩
  obtain ⟨lines, ht⟩ := keeps
  dsimp only
  rw [ht]

theorem State.line_idleLines (s : State) (ns : List LineIx) (n : LineIx) :
    (ns.foldl (fun s n => s.modLine n Line.idle) s).line n =
      if n ∈ ns then (s.line n).idle else s.line n := by
  induction ns generalizing s with
  | nil => simp
  | cons m ns ih =>
    rw [List.foldl_cons, ih]
    by_cases hm : n = m
    · subst hm
      rw [State.line_modLine_self, if_pos List.mem_cons_self]
      exact ite_self _
    · simp [State.line_modLine_ne _ _ _ _ hm, hm]

theorem execResetPinLow_running {s : State} (h : s.held = none) :
    execResetPinLow s = .next
      (let t := allLines.foldl (fun s n => s.modLine n Line.idle) s
       { t with held := some .pin, link := { t.link with tx := none, rx := .hunt }
                mgmt := { t.mgmt with resetPending := false } }) := by
  unfold execResetPinLow
  rw [whenRunning_free h]

/-- A command whose outcome is the state itself where the part is held. -/
theorem outcome_held {s t : State} {o : Host.Outcome State Fault Refusal} (h : s.held.isSome = true)
    (ho : o = .next (if s.held.isSome then s else t)) : o = .next s := by
  rw [ho, if_pos h]

/-- While the part is held, no command but POWER_ON and RESET_PIN_HIGH changes anything: each runs only where
the part is not held. -/
theorem exec_held {s : State} (h : s.held.isSome = true) (c : Instr) (hp : ∀ low, c ≠ .powerOn low)
    (hr : c ≠ .resetPinHigh) : exec c s = .next s := by
  cases c with
  | powerOn low => exact absurd rfl (hp low)
  | resetPinHigh => exact absurd rfl hr
  | unknownRequest tag kind content =>
    show execUnknownRequest tag kind content s = .next s
    unfold execUnknownRequest
    split
    · rfl
    · exact whenRunning_held h _
  | _ => exact outcome_held h rfl

/-- Settles O4: the first turns by `beginLines_reset`, the hold by `whenRunning_held`. -/
theorem powerOnAndResetPin : Obligations.PowerOnAndResetPin := by
  unfold Obligations.PowerOnAndResetPin
  refine ⟨fun s => ?_, fun s => rfl, fun s h => ?_, fun s cause h => ?_, fun s h => ?_,
    fun c s h hp hr => exec_held h c hp hr⟩
  · have first := State.beginLines_reset
      (s := { State.reset with freeCount := s.freeCount, pending := s.pending }) rfl rfl
    have hexec := execPowerOn_high s
    generalize State.beginLines _ = t at first hexec
    have hidle : t.arbiter = t := State.arbiter_busy (.inl (by rw [first.frame]; rfl))
    refine ⟨t, hexec.trans (congrArg _ hidle), ?_, ?_, fun l => ?_, fun n => ?_⟩
    · rw [first.frame]
    · rw [first.frame]
    · rw [first.lane l]
      simp only [exists_laneOf_zero, State.reset_lane]
      split <;> rfl
    · rw [first.line n _ (mem_zip_allLines n), State.reset_line]
      rfl
  · refine ⟨_, execResetPinLow_running h, ?_, fun n => ?_⟩
    · rw [s.idleLines_frame allLines]
    · exact (s.line_idleLines allLines n).trans (if_pos (List.mem_finRange n))
  · show execResetPinHigh s = _
    unfold execResetPinHigh
    rw [h]
  · show execResetPinHigh s = _
    unfold execResetPinHigh
    rw [h]

end Sys2Proof.Machine
end

section
/-! PROOFS. Requests, answers and frames read back (R118, R126, R143, R180, R193, R194, 11.1, 11.2). -/

namespace Sys2Proof.Machine

/-! ## Numbers from their characters (R193, R194) -/

theorem num2_chars (x : BitVec 16) : num2 (x.extractLsb' 8 8) (x.extractLsb' 0 8) = x := by
  have hx := x.isLt
  apply BitVec.eq_of_toNat_eq
  simp only [num2_toNat, BitVec.extractLsb'_toNat, Nat.shiftRight_eq_div_pow]
  omega

theorem num3_chars (x : BitVec 24) :
    num3 (x.extractLsb' 16 8) (x.extractLsb' 8 8) (x.extractLsb' 0 8) = x := by
  have hx := x.isLt
  apply BitVec.eq_of_toNat_eq
  simp only [num3_toNat, num2_toNat, BitVec.extractLsb'_toNat, Nat.shiftRight_eq_div_pow]
  omega

theorem num4_toNat (a b c d : Byte) :
    (num4 a b c d).toNat = (num3 a b c).toNat * 256 + d.toNat := by
  unfold num4 num3
  rw [BitVec.toNat_append (y := d), ← Nat.shiftLeft_add_eq_or_of_lt d.isLt, Nat.shiftLeft_eq]

theorem num4_chars (x : BitVec 32) : num4 (x.extractLsb' 24 8) (x.extractLsb' 16 8)
    (x.extractLsb' 8 8) (x.extractLsb' 0 8) = x := by
  have hx := x.isLt
  apply BitVec.eq_of_toNat_eq
  simp only [num4_toNat, num3_toNat, num2_toNat, BitVec.extractLsb'_toNat,
    Nat.shiftRight_eq_div_pow]
  omega

theorem num6_chars (x : BitVec 48) : num6 (x.extractLsb' 40 8) (x.extractLsb' 32 8)
    (x.extractLsb' 24 8) (x.extractLsb' 16 8) (x.extractLsb' 8 8) (x.extractLsb' 0 8) = x := by
  have hx := x.isLt
  apply BitVec.eq_of_toNat_eq
  simp only [num6_toNat, num3_toNat, num2_toNat, BitVec.extractLsb'_toNat,
    Nat.shiftRight_eq_div_pow]
  omega

/-! ## Requests (R180, 11.2) -/

theorem groupEntries_chars (es : List GroupWrite) :
    groupEntries (es.flatMap GroupWrite.chars) = some es := by
  induction es with
  | nil => rfl
  | cons e es ih =>
    show (groupEntries (es.flatMap GroupWrite.chars)).map _ = _
    rw [ih, num2_chars]
    rfl

theorem watchEntries_chars (es : List WatchWrite) :
    watchEntries (es.flatMap WatchWrite.chars) = some es := by
  induction es with
  | nil => rfl
  | cons e es ih =>
    show (watchEntries (es.flatMap WatchWrite.chars)).map _ = _
    rw [ih, num6_chars]
    rfl

/-- The message of a well-formed request reads back as that request: two rows of one request are told apart by
their code character (log 11). -/
theorem requestOf_wire (i : Instr) (w : WireRequest) (h : i.wellFormed = true)
    (hw : i.wire = some w) : requestOf w = i := by
  cases i with
  | unknownRequest tag kind content =>
    obtain rfl := Option.some.inj hw
    have hn : (catalogueRequest kind.toNat tag content).isNone = true := (Bool.and_eq_true_iff.1 h).2
    unfold requestOf
    rw [Option.isNone_iff_eq_none.1 hn]
    rfl
  | channelSetEnable tag channel enable =>
    obtain rfl := Option.some.inj hw
    have hne : enable ≠ 0 := bne_iff_ne.1 h
    exact if_neg hne
  | badgeClear tag mode badge =>
    obtain rfl := Option.some.inj hw
    have hne : mode ≠ 1 := bne_iff_ne.1 h
    exact (if_neg hne).trans (congrArg (Instr.badgeClear tag mode) (num2_chars badge))
  | laneClose tag lane force =>
    obtain rfl := Option.some.inj hw
    have hne : force ≠ 1 := bne_iff_ne.1 h
    exact if_neg hne
  | resolveClear tag console slot issue action =>
    obtain rfl := Option.some.inj hw
    have hne : action ≠ 1 := bne_iff_ne.1 h
    exact if_neg hne
  | loadBegin tag bank groups watch =>
    obtain rfl := Option.some.inj hw
    exact congrArg (fun g => Instr.loadBegin tag bank g watch) (num2_chars groups)
  | loadGroups tag bank es =>
    obtain rfl := Option.some.inj hw
    exact congrArg (fun o => (Option.map (Instr.loadGroups tag bank) o).getD _)
      (groupEntries_chars es)
  | loadWatch tag bank es =>
    obtain rfl := Option.some.inj hw
    exact congrArg (fun o => (Option.map (Instr.loadWatch tag bank) o).getD _)
      (watchEntries_chars es)
  | badgeSet tag badge level =>
    obtain rfl := Option.some.inj hw
    exact congrArg (fun n => Instr.badgeSet tag n level) (num2_chars badge)
  | badgeClearAll tag badge =>
    obtain rfl := Option.some.inj hw
    exact congrArg (Instr.badgeClearAll tag) (num2_chars badge)
  | zoneSet tag console lanes =>
    obtain rfl := Option.some.inj hw
    exact congrArg (Instr.zoneSet tag console) (num3_chars lanes)
  | setParam tag param value =>
    obtain rfl := Option.some.inj hw
    exact congrArg (Instr.setParam tag param) (num3_chars value)
  | setTime tag value =>
    obtain rfl := Option.some.inj hw
    exact congrArg (Instr.setTime tag) (num4_chars value)
  | _ => cases hw <;> rfl

/-! ## Lane frames (R143) -/

theorem actionOf_code (a : Action) : actionOf a.code = some a := by
  cases a <;> rfl

/-- The content of a lane frame in range parses to that frame. -/
theorem parseFrame_content (b : LaneFrame) (h : b.inRange = true) :
    parseFrame (b.kind.ix.1 + 1) b.content = some b := by
  cases b with
  | scan a g q p w =>
    simp only [LaneFrame.inRange, Bool.and_eq_true, decide_eq_true_eq] at h
    obtain ⟨⟨⟨⟨hg, hq1⟩, hq⟩, hp⟩, hw⟩ := h
    show (if _ then some (LaneFrame.scan (num6 _ _ _ _ _ _) (num2 _ _) q (num3 _ _ _) (num3 _ _ _))
      else none) = _
    rw [num6_chars, num2_chars, num3_chars, num3_chars, if_pos ⟨hg, hq1, hq, hp, hw⟩]
  | weigh a g w p =>
    simp only [LaneFrame.inRange, Bool.and_eq_true, decide_eq_true_eq] at h
    obtain ⟨⟨hg, hw⟩, hp⟩ := h
    show (if _ then some (LaneFrame.weigh (num6 _ _ _ _ _ _) (num2 _ _) (num3 _ _ _) (num3 _ _ _))
      else none) = _
    rw [num6_chars, num2_chars, num3_chars, num3_chars, if_pos ⟨hg, hw, hp⟩]
  | bag r st =>
    have hr : r.toNat ≤ 99999 := of_decide_eq_true h
    show (if _ then some (LaneFrame.bag (num3 _ _ _) _) else none) = _
    rw [num3_chars]
    cases st
    · exact if_pos ⟨hr, .inl rfl⟩
    · exact if_pos ⟨hr, .inr rfl⟩
  | remove a => exact congrArg (fun v => some (LaneFrame.remove v)) (num6_chars a)
  | help => rfl
  | total c =>
    have hc : c.toNat ≤ 9999999 := of_decide_eq_true h
    show (if _ then some (LaneFrame.total (num3 _ _ _)) else none) = _
    rw [num3_chars, if_pos hc]
  | resumeScan => rfl
  | paid c =>
    have hc : c.toNat ≤ 9999999 := of_decide_eq_true h
    show (if _ then some (LaneFrame.paid (num3 _ _ _)) else none) = _
    rw [num3_chars, if_pos hc]
  | tenderFail c =>
    have hc : c.toNat ≤ 9999999 := of_decide_eq_true h
    show (if _ then some (LaneFrame.tenderFail (num3 _ _ _)) else none) = _
    rw [num3_chars, if_pos hc]
  | badge n => exact congrArg (fun v => some (LaneFrame.badge v)) (num2_chars n)
  | override a => exact congrArg (Option.map LaneFrame.override) (actionOf_code a)

/-! ## Answers heard (R118, R126) -/

/-- A byte received clean, as a character of a message after its first. -/
def heardByte (b : Byte) : RxChar := rxClean (lineChar b false)

/-- What is heard of some characters: all but the false starts (R118). -/
def heard (cs : List RxChar) : List RxChar := cs.filter (fun c => !rxFalseStart c)

theorem heard_address (b : Byte) (cs : List RxChar) :
    heard (rxClean (lineChar b true) :: cs) = rxClean (lineChar b true) :: heard cs :=
  List.filter_cons_of_pos (by rw [rxFalseStart_clean]; rfl)

theorem heard_bytes (bs : List Byte) (cs : List RxChar) :
    heard (bs.map heardByte ++ cs) = bs.map heardByte ++ heard cs := by
  unfold heard
  rw [List.filter_append, List.filter_eq_self.2]
  intro c hc
  obtain ⟨b, -, rfl⟩ := List.mem_map.1 hc
  unfold heardByte
  rw [rxFalseStart_clean]
  rfl

theorem heard_cons {c : RxChar} (hc : rxFalseStart c = false) (cs : List RxChar) :
    heard (c :: cs) = c :: heard cs :=
  List.filter_cons_of_pos (by rw [hc]; rfl)

theorem map_rxData_heardByte (bs : List Byte) : (bs.map heardByte).map rxData = bs := by
  rw [List.map_map]
  exact (List.map_congr_left fun b _ => rxData_clean b false).trans bs.map_id

theorem any_rxNoisy_heardByte (bs : List Byte) : (bs.map heardByte).any rxNoisy = false := by
  rw [List.any_map, List.any_eq_false]
  intro b _
  simp [heardByte, rxNoisy_clean]

/-! ## The start of an answer (R126) -/

section
variable {d : DropIx} {cs : List RxChar}

/-- A first character that is damaged ends the answer. -/
theorem receiveAnswer_damagedAddress {c : RxChar} {rest : List RxChar} (h : heard cs = c :: rest)
    (hc : rxIntact true c = false) : receiveAnswer d cs = (none, rest) := by
  unfold heard at h
  unfold receiveAnswer
  rw [h]
  exact if_pos (.inl hc)

/-- After the address of the drop polled, the second character: damaged, the echo of a NIL, or the length of
a frame. -/
theorem receiveAnswer_addressed {code : BitVec 5} {c : RxChar} {more : List RxChar}
    (h : heard cs = rxClean (lineChar (addressChar d code) true) :: c :: more) :
    receiveAnswer d cs =
      if rxIntact false c = false then (none, more)
      else if code = 0 then
        (some { echo := (rxData c).extractLsb' 0 3
                noisy := rxNoisy (rxClean (lineChar (addressChar d code) true)) || rxNoisy c
                frame := none }, more)
      else if 40 < (rxData c).toNat then (none, more)
      else receiveFrame (rxClean (lineChar (addressChar d code) true)) c more := by
  obtain ⟨hdrop, hcode⟩ := addressChar_fields d code
  have hgood : ¬(rxIntact true (rxClean (lineChar (addressChar d code) true)) = false ∨
      ((rxData (rxClean (lineChar (addressChar d code) true))).extractLsb' 0 3).toNat ≠ d.1) := by
    rw [rxIntact_clean, rxData_clean, hdrop]
    simp
  unfold heard at h
  unfold receiveAnswer
  rw [h]
  dsimp only
  rw [if_neg hgood, rxData_clean, hcode]

end

theorem echo_of_nil (echo : Gen) : ((echo.setWidth 8 : Byte).extractLsb' 0 3) = echo := by
  revert echo
  decide

/-- A NIL received clean (R126). -/
theorem receiveAnswer_nil (d : DropIx) (echo : Gen) (more : List RxChar) :
    receiveAnswer d (nilAnswer d echo ++ more) =
      (some { echo := echo, noisy := false, frame := none }, heard more) := by
  have hheard : heard (nilAnswer d echo ++ more) =
      rxClean (lineChar (addressChar d 0) true) :: heardByte (echo.setWidth 8) :: heard more :=
    (heard_address _ _).trans (congrArg _ (heard_bytes [echo.setWidth 8] more))
  rw [receiveAnswer_addressed hheard, if_neg (by simp [heardByte, rxIntact_clean]), if_pos rfl]
  unfold heardByte
  rw [rxData_clean, rxNoisy_clean, rxNoisy_clean, echo_of_nil]
  rfl

/-! ## Lane frames received (R126, R193) -/

/-- The characters of a lane frame after its length: sequence and echo, content and check (R193, 11.1). -/
def frameBody (d : DropIx) (code : BitVec 5) (seq : Seq) (echo : Gen) (content : List Byte) :
    List Byte :=
  let se : Byte := (echo ++ seq).setWidth 8
  se :: (content ++
    [crc8 (addressChar d code :: BitVec.ofNat 8 content.length :: se :: content)])

section
variable (d : DropIx) (code : BitVec 5) (seq : Seq) (echo : Gen) (content : List Byte)

theorem frameBody_length : (frameBody d code seq echo content).length = content.length + 2 := by
  simp [frameBody]

theorem frameAnswer_eq :
    frameAnswer d code seq echo content =
      rxClean (lineChar (addressChar d code) true) ::
        heardByte (BitVec.ofNat 8 content.length) ::
          (frameBody d code seq echo content).map heardByte := rfl

theorem seqEcho_fields :
    (((echo ++ seq).setWidth 8 : Byte).extractLsb' 3 3) = echo ∧
      (((echo ++ seq).setWidth 8 : Byte).extractLsb' 0 3) = seq := by
  revert echo seq
  decide

variable {content} (hlen : content.length ≤ 40)
include hlen

theorem length_char : (rxData (heardByte (BitVec.ofNat 8 content.length))).toNat = content.length := by
  unfold heardByte
  rw [rxData_clean, BitVec.toNat_ofNat]
  omega

/-- The rest of a lane frame received clean (R126, R193). -/
theorem receiveFrame_clean (more : List RxChar) :
    receiveFrame (rxClean (lineChar (addressChar d code) true))
        (heardByte (BitVec.ofNat 8 content.length))
        ((frameBody d code seq echo content).map heardByte ++ more) =
      (some { echo := echo, noisy := false
              frame := some { code := code, seq := seq, content := content } }, more) := by
  have hn := frameBody_length d code seq echo content
  have hnone : afterDamage (content.length + 2)
      ((frameBody d code seq echo content).map heardByte ++ more) = none :=
    hn ▸ afterDamage_clean (frameBody d code seq echo content) more
  have htake : ((frameBody d code seq echo content).map heardByte ++ more).take
      (content.length + 2) = (frameBody d code seq echo content).map heardByte :=
    List.take_left' (by rw [List.length_map, hn])
  have hdrop : ((frameBody d code seq echo content).map heardByte ++ more).drop
      (content.length + 2) = more := List.drop_left' (by rw [List.length_map, hn])
  have hnoisy : (rxClean (lineChar (addressChar d code) true) ::
      heardByte (BitVec.ofNat 8 content.length) ::
        (frameBody d code seq echo content).map heardByte).any rxNoisy = false := by
    rw [List.any_cons, List.any_cons, any_rxNoisy_heardByte]
    simp [heardByte, rxNoisy_clean]
  have hcode := (addressChar_fields d code).2
  obtain ⟨hecho, hseq⟩ := seqEcho_fields seq echo
  unfold receiveFrame
  dsimp only
  rw [length_char hlen, hnone, htake, hdrop, hnoisy, map_rxData_heardByte, List.length_map, hn]
  simp only [frameBody, heardByte, rxData_clean, List.getLast?_concat, List.dropLast_concat,
    and_self, if_true, hecho, hseq, hcode]

/-- A damaged character before the end of a lane frame ends it (R126). -/
theorem receiveFrame_damaged {bs : List Byte} {c : RxChar} (hbs : bs.length < content.length + 2)
    (hc : rxIntact false c = false) (a : RxChar) (more : List RxChar) :
    receiveFrame a (heardByte (BitVec.ofNat 8 content.length)) (bs.map heardByte ++ c :: more) =
      (none, more) := by
  have hdamage : afterDamage (content.length + 2) (bs.map heardByte ++ c :: more) = some more :=
    afterDamage_damaged hbs hc more
  unfold receiveFrame
  dsimp only
  rw [length_char hlen, hdamage]

variable {code} (hcode : code ≠ 0)
include hcode

/-- A frame's address and length make way for the rest of the frame. -/
theorem receiveAnswer_toFrame {cs more : List RxChar}
    (h : heard cs = rxClean (lineChar (addressChar d code) true) ::
      heardByte (BitVec.ofNat 8 content.length) :: more) :
    receiveAnswer d cs = receiveFrame (rxClean (lineChar (addressChar d code) true))
      (heardByte (BitVec.ofNat 8 content.length)) more := by
  rw [receiveAnswer_addressed h, if_neg (by simp [heardByte, rxIntact_clean]), if_neg hcode,
    length_char hlen, if_neg (Nat.not_lt.2 hlen)]

/-- A lane frame received clean (R126). -/
theorem receiveAnswer_frame (more : List RxChar) :
    receiveAnswer d (frameAnswer d code seq echo content ++ more) =
      (some { echo := echo, noisy := false
              frame := some { code := code, seq := seq, content := content } }, heard more) := by
  have hheard : heard (frameAnswer d code seq echo content ++ more) =
      rxClean (lineChar (addressChar d code) true) ::
        heardByte (BitVec.ofNat 8 content.length) ::
          ((frameBody d code seq echo content).map heardByte ++ heard more) :=
    (heard_address _ _).trans (congrArg _ (heard_bytes (BitVec.ofNat 8 content.length :: _) more))
  rw [receiveAnswer_toFrame d hlen hcode hheard]
  exact receiveFrame_clean d code seq echo hlen (heard more)

/-- A lane frame of which a character is damaged, wherever it is (R126). -/
theorem receiveAnswer_frameDamaged {k : Nat} {c : RxChar}
    (hk : k < (frameAnswer d code seq echo content).length) (hs : rxFalseStart c = false)
    (hc : rxIntact (decide (k = 0)) c = false) (more : List RxChar) :
    receiveAnswer d ((frameAnswer d code seq echo content).take k ++ c :: more) =
      (none, heard more) := by
  rw [frameAnswer_eq] at hk ⊢
  match k with
  | 0 => exact receiveAnswer_damagedAddress (heard_cons hs more) hc
  | 1 =>
    refine (receiveAnswer_addressed (code := code) ?_).trans (if_pos hc)
    exact (heard_address _ _).trans (congrArg _ (heard_cons hs more))
  | k + 2 =>
    have hbody : k < content.length + 2 := by
      have hn := frameBody_length d code seq echo content
      simp only [List.length_cons, List.length_map] at hk
      omega
    have hheard : heard (rxClean (lineChar (addressChar d code) true) ::
        heardByte (BitVec.ofNat 8 content.length) ::
          (((frameBody d code seq echo content).take k).map heardByte ++ c :: more)) = _ :=
      (heard_address _ _).trans (congrArg _
        ((heard_bytes (BitVec.ofNat 8 content.length :: _) _).trans
          (congrArg _ (heard_cons hs more))))
    rw [List.take_succ_cons, List.take_succ_cons, ← List.map_take]
    refine (receiveAnswer_toFrame d hlen hcode hheard).trans ?_
    exact receiveFrame_damaged hlen (by rw [List.length_take]; omega) hc _ _

end

/-- Settles O60: requests command by command, answers by where reception ends, frames kind by kind. -/
theorem encodingsReadBack : Obligations.EncodingsReadBack := by
  unfold Obligations.EncodingsReadBack
  exact ⟨requestOf_wire, receiveAnswer_nil,
    fun d code seq echo content more hcode hlen => receiveAnswer_frame d seq echo hlen hcode more,
    fun d code seq echo content k c more hcode hlen hk hs hc =>
      receiveAnswer_frameDamaged d seq echo hlen hcode hk hs hc more,
    parseFrame_content, fun code content b h => parseFrame_some h⟩

end Sys2Proof.Machine
end

section
/-! PROOFS. The buffers of the frame pool, place by place, and what the operations of the floor do to them
(R150 to R152): an operation keeps the buffers that the floor holds, or takes one more into them. -/

namespace Sys2Proof.Machine

/-! ## The buffers in each place (R152) -/

/-- The buffers of a deferred list (R40). -/
def Lane.buffers (x : Lane) : List BufId := x.deferred.map (·.buf)

/-- The buffers of a channel queue (R164). -/
def Channel.buffers (c : Channel) : List BufId := c.queue.map (·.frame.buf)

/-- The buffer of an answer slot, if it holds one (R123). -/
def Line.buffers (x : Line) : List BufId := x.slot.toList

/-- How often each buffer is held. -/
abbrev Bag := BufId → Nat

/-- A bag with the buffers of a list put in. -/
def Bag.plus (x : Bag) (bs : List BufId) : Bag := fun b => x b + bs.count b

/-- What some places hold together. -/
def bagOf {ι : Type} (places : List ι) (held : ι → List BufId) : Bag := fun b =>
  (places.map fun i => (held i).count b).sum

/-- What the floor holds: on the free list, on deferred lists and in channel queues. -/
def Floor.buffers (f : Floor) : Bag := fun b =>
  f.free.count b + bagOf allLanes (fun l => (f.lane l).buffers) b +
    bagOf allChans (fun c => f.chans[c].buffers) b

/-- What the part holds: the floor and the answer slots. -/
def State.buffers (s : State) : Bag := fun b =>
  s.floor.buffers b + bagOf allLines (fun n => (s.line n).buffers) b

theorem Bag.plus_nil (x : Bag) : x.plus [] = x := rfl

theorem Bag.plus_append (x : Bag) (bs cs : List BufId) : x.plus (bs ++ cs) = (x.plus bs).plus cs := by
  funext b
  simp only [Bag.plus, List.count_append, Nat.add_assoc]

theorem Bag.plus_perm (x : Bag) {bs cs : List BufId} (h : bs.Perm cs) : x.plus bs = x.plus cs := by
  funext b
  simp only [Bag.plus, h.count_eq]

theorem Bag.plus_cancel {x y : Bag} {bs : List BufId} (h : x.plus bs = y.plus bs) : x = y := by
  funext b
  exact Nat.add_right_cancel (congrFun h b)

/-- A part exchanged for one that holds more: the whole holds that much more. -/
theorem Bag.more {whole whole' : Bag} {old new bs : List BufId} (h : whole'.plus old = whole.plus new)
    (hnew : new.Perm (bs ++ old)) : whole' = whole.plus bs := by
  rw [whole.plus_perm hnew, Bag.plus_append] at h
  exact Bag.plus_cancel h

/-- A part exchanged for one that holds less: the whole holds that much less. -/
theorem Bag.less {whole whole' : Bag} {old new bs : List BufId} (h : whole'.plus old = whole.plus new)
    (hold : old.Perm (bs ++ new)) : whole'.plus bs = whole :=
  (Bag.more h.symm hold).symm

/-- Sums over distinct places where two measures agree but at one place. -/
theorem sum_exchange {ι : Type} {xs : List ι} (hn : xs.Nodup) {i : ι} (hi : i ∈ xs) {v w : ι → Nat}
    (h : ∀ j, j ≠ i → w j = v j) : (xs.map w).sum + v i = (xs.map v).sum + w i := by
  induction xs with
  | nil => cases hi
  | cons x xs ih =>
    obtain ⟨hx, hn⟩ := List.nodup_cons.1 hn
    simp only [List.map_cons, List.sum_cons]
    rcases List.mem_cons.1 hi with rfl | hi
    · have others : xs.map w = xs.map v :=
        List.map_congr_left fun j hj => h j fun e => hx (e ▸ hj)
      rw [others]
      omega
    · have hxi : w x = v x := h x fun e => hx (e ▸ hi)
      have := ih hn hi
      omega

/-- One entry of a vector of places replaced: what the new one holds counts for what the old one held. -/
theorem bagOf_upd {α : Type} {n : Nat} (held : α → List BufId) (xs : Vector α n) (i : Fin n) (a : α) :
    (bagOf (List.finRange n) fun j => held (upd xs i a)[j]).plus (held xs[i]) =
      (bagOf (List.finRange n) fun j => held xs[j]).plus (held a) := by
  funext b
  have h := sum_exchange (List.nodup_finRange n) (List.mem_finRange i)
    (v := fun j => (held xs[j]).count b) (w := fun j => (held (upd xs i a)[j]).count b)
    fun j hj => by rw [upd_get_ne xs i j a hj]
  rw [upd_get_self] at h
  exact h

theorem count_filterMap_slots {ι : Type} (slot : ι → Option BufId) (xs : List ι) (b : BufId) :
    (xs.filterMap slot).count b = bagOf xs (fun i => (slot i).toList) b := by
  induction xs with
  | nil => rfl
  | cons x xs ih =>
    have hx : bagOf (x :: xs) (fun i => (slot i).toList) b =
        (slot x).toList.count b + bagOf xs (fun i => (slot i).toList) b := rfl
    rw [hx, ← ih, List.filterMap_cons]
    cases slot x with
    | none => exact (Nat.zero_add _).symm
    | some c => exact List.count_append (l₁ := [c])

theorem count_flatMap_places {ι : Type} (held : ι → List BufId) (xs : List ι) (b : BufId) :
    (xs.flatMap held).count b = bagOf xs held b := by
  rw [List.count_flatMap]
  rfl

/-- The places of R152 hold what the part holds, each buffer as often. -/
theorem State.count_places (s : State) (b : BufId) : s.places.count b = s.buffers b := by
  have swap (free slots deferred queues : Nat) :
      free + slots + deferred + queues = free + deferred + queues + slots := by omega
  simp only [State.places, List.count_append, count_filterMap_slots, count_flatMap_places]
  exact swap _ _ _ _

theorem State.buffersInPlace_iff (s : State) : s.buffersInPlace ↔ ∀ b, s.buffers b = 1 := by
  simp only [State.buffersInPlace, State.count_places]

theorem State.buffersInPlace_of_eq {s t : State} (h : s.buffersInPlace) (ht : t.buffers = s.buffers) :
    t.buffersInPlace := by
  rw [State.buffersInPlace_iff] at h ⊢
  rw [ht]
  exact h

/-! ## The floor -/

/-- A floor with the same free list, deferred lists and queues holds the same buffers. -/
theorem Floor.buffers_congr {f g : Floor} (hfree : g.free = f.free)
    (hlanes : ∀ l, (g.lane l).deferred = (f.lane l).deferred)
    (hchans : ∀ c : ChanIx, g.chans[c].queue = f.chans[c].queue) : g.buffers = f.buffers := by
  funext b
  simp only [Floor.buffers, Lane.buffers, Channel.buffers, hfree, hlanes, hchans]

theorem Floor.buffers_of_still {f g : Floor} (h : f.still = g.still) : f.buffers = g.buffers := by
  obtain ⟨hfree, hchans, -, -, hcore⟩ := Floor.of_still h
  exact Floor.buffers_congr hfree (fun l => (congrArg Lane.deferred (hcore l) :)) fun c => by rw [hchans]

theorem Floor.buffers_setLane (f : Floor) (l : LaneIx) (x : Lane) :
    (f.setLane l x).buffers.plus (f.lane l).buffers = f.buffers.plus x.buffers := by
  funext b
  have swap {old new old' new' : Nat} (free queues : Nat) (h : new + old = old' + new') :
      free + new + queues + old = free + old' + queues + new' := by omega
  exact swap _ _ (congrFun (bagOf_upd Lane.buffers f.lanes l x) b)

theorem Floor.buffers_modLane (f : Floor) (l : LaneIx) (g : Lane → Lane) :
    (f.modLane l g).buffers.plus (f.lane l).buffers = f.buffers.plus (g (f.lane l)).buffers :=
  f.buffers_setLane l _

@[simp] theorem Floor.buffers_modLane_same (f : Floor) (l : LaneIx) {g : Lane → Lane}
    (hg : ∀ x, (g x).deferred = x.deferred) : (f.modLane l g).buffers = f.buffers := by
  have h := f.buffers_modLane l g
  rw [Lane.buffers, Lane.buffers, hg] at h
  exact Bag.plus_cancel h

theorem Floor.buffers_modChan (f : Floor) (c : ChanIx) (g : Channel → Channel) :
    (f.modChan c g).buffers.plus f.chans[c].buffers = f.buffers.plus (g f.chans[c]).buffers := by
  funext b
  have swap {old new old' new' : Nat} (rest : Nat) (h : new + old = old' + new') :
      rest + new + old = rest + old' + new' := by omega
  exact swap _ (congrFun (bagOf_upd Channel.buffers f.chans c (g f.chans[c])) b)

@[simp] theorem Floor.buffers_modChan_same (f : Floor) (c : ChanIx) {g : Channel → Channel}
    (hg : ∀ x, (g x).queue = x.queue) : (f.modChan c g).buffers = f.buffers := by
  have h := f.buffers_modChan c g
  rw [Channel.buffers, Channel.buffers, hg] at h
  exact Bag.plus_cancel h

theorem Floor.buffers_withFree (f : Floor) (bs : List BufId) :
    Floor.buffers { f with free := f.free ++ bs } = f.buffers.plus bs := by
  funext b
  have swap (free new lanes queues : Nat) :
      free + new + lanes + queues = free + lanes + queues + new := by omega
  simp only [Floor.buffers, Bag.plus, List.count_append]
  exact swap _ _ _ _

@[simp] theorem Floor.buffers_giveBack (f : Floor) (b : BufId) :
    (f.giveBack b).buffers = f.buffers.plus [b] := f.buffers_withFree [b]

@[simp] theorem Floor.buffers_touch (f : Floor) (l : LaneIx) : (f.touch l).buffers = f.buffers := rfl
@[simp] theorem Floor.buffers_flag (f : Floor) (l : LaneIx) : (f.flag l).buffers = f.buffers := rfl
@[simp] theorem Floor.buffers_withDesk (f : Floor) (d : Desk) :
    Floor.buffers { f with desk := d } = f.buffers := rfl
@[simp] theorem Floor.buffers_withPresence (f : Floor) (c : PresenceCounters) :
    Floor.buffers { f with presence := c } = f.buffers := rfl

/-- The buffers of a freed deferred list go to the free list (R44). -/
@[simp] theorem Floor.buffers_freeDeferred (f : Floor) (l : LaneIx) :
    (f.freeDeferred l).buffers = f.buffers := by
  unfold Floor.freeDeferred
  dsimp only
  rw [Floor.buffers_withFree]
  refine (f.buffers_setLane l _).trans ?_
  exact Bag.plus_nil _

@[simp] theorem Floor.buffers_insertions (p : Params) (f : Floor) :
    (f.insertions p).buffers = f.buffers :=
  Floor.buffers_of_still (Floor.still_insertions p f)

@[simp] theorem Floor.buffers_raise (e : Env) (l : LaneIx) (r : Reason) (detail : Option Detail)
    (src : Option HelpSource) (f : Floor) : (f.raise e l r detail src).buffers = f.buffers :=
  Floor.buffers_of_still (Floor.still_raise e l r detail src f)

@[simp] theorem Floor.buffers_resolve (l : LaneIx) (r : Reason) (f : Floor) :
    (f.resolve l r).buffers = f.buffers :=
  Floor.buffers_of_still (Floor.still_resolve l r f)

@[simp] theorem Floor.buffers_removeAll (l : LaneIx) (rs : List Reason) (f : Floor) :
    (f.removeAll l rs).buffers = f.buffers :=
  Floor.buffers_of_still (Floor.still_removeAll l rs f)

@[simp] theorem Floor.buffers_settle (e : Env) (f : Floor) : (f.settle e).buffers = f.buffers :=
  Floor.buffers_of_still (Floor.still_settle e f)

@[simp] theorem Floor.buffers_enter (f : Floor) (l : LaneIx) (st : LaneState) :
    (f.enter l st).buffers = f.buffers := by
  have h : (f.setLane l { f.lane l with state := st }).buffers = f.buffers :=
    f.buffers_modLane_same l (g := fun x => { x with state := st }) fun _ => rfl
  unfold Floor.enter
  dsimp only
  split
  · exact h
  · exact h

@[simp] theorem Floor.buffers_enterClosed (l : LaneIx) (f : Floor) :
    (f.enterClosed l).buffers = f.buffers := by
  simp [Floor.enterClosed]

@[simp] theorem Floor.buffers_endTxn (l : LaneIx) (f : Floor) :
    (f.endTxn l).1.buffers = f.buffers := by
  have hcore : (f.endTxnCore l).buffers = f.buffers := by simp [Floor.endTxnCore]
  rw [Floor.endTxn_eq]
  dsimp only
  split
  · rw [Floor.buffers_enterClosed, hcore]
  · rw [Floor.buffers_enter, hcore]

@[simp] theorem Floor.buffers_takeSession (e : Env) (l : LaneIx) (n : BadgeNo) (lv : Level) (f : Floor) :
    (f.takeSession e l n lv).buffers = f.buffers := by
  simp [Floor.takeSession]

@[simp] theorem Floor.buffers_openSession (e : Env) (l : LaneIx) (n : BadgeNo) (lv : Level) (f : Floor) :
    (f.openSession e l n lv).buffers = f.buffers := by
  simp [Floor.openSession]

@[simp] theorem Floor.buffers_closeSession (p : Params) (l : LaneIx) (f : Floor) :
    (f.closeSession p l).buffers = f.buffers := by
  unfold Floor.closeSession
  split
  · exact (Floor.buffers_withDesk _ _).trans (by simp)
  · rfl

/-! ## A frame in processing (R14) -/

section
variable (e : Env) (l : LaneIx) (p : Proc)

@[simp] theorem Proc.floor_note (a : AnnoSet) : (p.note a).floor = p.floor := rfl
@[simp] theorem Proc.floor_report (a : AnnoSet) : (p.report a).floor = p.floor := rfl
@[simp] theorem Proc.floor_drop : p.drop.floor = p.floor := rfl
@[simp] theorem Proc.floor_byCustomer : p.byCustomer.floor = p.floor := rfl
@[simp] theorem Proc.floor_onFloor (g : Floor → Floor) : (p.onFloor g).floor = g p.floor := rfl
@[simp] theorem Proc.floor_onLane (g : Lane → Lane) :
    (p.onLane l g).floor = p.floor.modLane l g := rfl
@[simp] theorem Proc.floor_raise (r : Reason) (detail : Option Detail) (src : Option HelpSource) :
    (p.raise e l r detail src).floor = p.floor.raise e l r detail src := rfl
@[simp] theorem Proc.floor_resolve (r : Reason) : (p.resolve l r).floor = p.floor.resolve l r := by
  rw [Proc.resolve_eq]
@[simp] theorem Proc.buffers_count (g : PresenceCounters → PresenceCounters) :
    (p.count g).floor.buffers = p.floor.buffers := rfl

/-! What a frame does to its lane leaves the deferred list. Written `(rfl)`, these serve `simp` as rewriting
steps in the side condition of `Floor.buffers_modLane_same`. -/

@[simp] theorem Lane.deferred_addItem (q : Params) (i : ItemFrame) (fl : ItemFlags) (x : Lane) :
    (x.addItem q i fl).deferred = x.deferred := (rfl)
@[simp] theorem Lane.deferred_startTxn (x : Lane) : (x.startTxn e).deferred = x.deferred := (rfl)
@[simp] theorem Lane.deferred_refuseWith (m : RefusalMsg) (x : Lane) :
    (x.refuseWith m).deferred = x.deferred := (rfl)
@[simp] theorem Lane.deferred_restartPresence (q : Params) (x : Lane) :
    (x.restartPresence q).deferred = x.deferred := (rfl)
@[simp] theorem Lane.deferred_voidItem (q : Params) (x : Lane) :
    (x.voidItem q).deferred = x.deferred := by
  unfold Lane.voidItem
  split <;> rfl

@[simp] theorem Proc.buffers_checkAge (i : ItemFrame) (fl : ItemFlags) :
    (p.checkAge e l i fl).floor.buffers = p.floor.buffers := by
  unfold Proc.checkAge
  split <;> simp

@[simp] theorem Proc.buffers_checkValue : (p.checkValue e l).floor.buffers = p.floor.buffers := by
  unfold Proc.checkValue
  dsimp only
  split <;> simp

@[simp] theorem Proc.buffers_item (i : ItemFrame) :
    (p.item e l i).floor.buffers = p.floor.buffers := by
  unfold Proc.item
  dsimp only
  split
  · simp
  · simp only [Proc.buffers_checkValue, Proc.buffers_checkAge, Proc.floor_onLane,
      Floor.buffers_modLane_same, Lane.deferred_addItem, implies_true]
    split <;> split <;> simp

@[simp] theorem Proc.buffers_itemFrame (i : ItemFrame) :
    (p.itemFrame e l i).floor.buffers = p.floor.buffers := by
  unfold Proc.itemFrame
  split <;> simp

@[simp] theorem Proc.buffers_reconcile (m : Nat) :
    (p.reconcile e l m).floor.buffers = p.floor.buffers := by
  unfold Proc.reconcile
  dsimp only
  split
  · split <;> simp
  · split <;> simp

@[simp] theorem Proc.buffers_bag (m : Nat) (stable : Bool) :
    (p.bag e l m stable).floor.buffers = p.floor.buffers := by
  unfold Proc.bag
  dsimp only
  split
  · split <;> split <;> simp
  · rfl

@[simp] theorem Proc.buffers_endTxn : (p.endTxn l).floor.buffers = p.floor.buffers := by
  unfold Proc.endTxn
  dsimp only
  split <;> simp

@[simp] theorem Proc.buffers_refuseBadge : (p.refuseBadge l).floor.buffers = p.floor.buffers := by
  simp [Proc.refuseBadge]

@[simp] theorem Proc.buffers_badge (n : BadgeNo) :
    (p.badge e l n).floor.buffers = p.floor.buffers := by
  unfold Proc.badge
  split
  · simp
  · split
    · simp [Proc.openSession]
    · split
      · simp
      · split <;> simp

@[simp] theorem Proc.buffers_perform (a : Action) :
    (p.perform e l a).floor.buffers = p.floor.buffers := by
  cases a with
  | voidLast =>
    simp only [Proc.perform, Proc.floor_resolve, Floor.buffers_resolve]
    split <;> simp
  | ack | approveWeight | approveItem | approveAge | approveValue | cancel => simp [Proc.perform]

@[simp] theorem Proc.buffers_override (a : Action) :
    (p.override e l a).floor.buffers = p.floor.buffers := by
  unfold Proc.override
  split
  · simp
  · split
    · simp [Proc.refuseOverride]
    · split <;> simp [Proc.refuseOverride]

/-- The effect of a frame keeps the buffers of the floor; the frame's own is not among them. -/
@[simp] theorem Proc.buffers_effect (b : LaneFrame) :
    (p.effect e l b).floor.buffers = p.floor.buffers := by
  cases b with
  | scan | weigh | bag | badge | override => simp [Proc.effect]
  | help => simp [Proc.effect, Proc.help]
  | remove =>
    simp only [Proc.effect, Proc.remove]
    split <;> simp
  | total =>
    simp only [Proc.effect, Proc.total]
    split
    case h_3 | h_4 | h_5 | h_6 => simp
    all_goals split <;> simp
  | resumeScan =>
    simp only [Proc.effect, Proc.resumeScan]
    split <;> simp
  | paid =>
    simp only [Proc.effect, Proc.paid]
    split <;> simp
  | tenderFail =>
    simp only [Proc.effect, Proc.tenderFail]
    split <;> simp

@[simp] theorem Proc.buffers_activity : (p.activity e l).floor.buffers = p.floor.buffers := by
  unfold Proc.activity
  dsimp only
  split <;> simp

end

/-! ## Frames processed, deferred and taken in (R14, R41, R43, R139 to R149) -/

section
variable (e : Env) (l : LaneIx) (f : Floor)

/-- The buffer of an event handed on joins a queue or the free list (R164). -/
@[simp] theorem Floor.buffers_handOn (ev : LaneEvent) :
    (f.handOn e ev).buffers = f.buffers.plus [ev.frame.buf] := by
  have queued (c : ChanIx) : (f.modChan c (fun ch => { ch with queue := ch.queue ++ [ev] })).buffers =
      f.buffers.plus [ev.frame.buf] := by
    refine Bag.more (f.buffers_modChan c _) ?_
    rw [Channel.buffers, List.map_append]
    exact List.perm_append_comm
  unfold Floor.handOn
  split
  · simp
  · split
    · simp
    · exact queued _
    · exact queued _

/-- A processed frame's buffer joins those of the floor (R14). -/
@[simp] theorem Floor.buffers_process (fr : Frame) (deferred : Bool) :
    (f.process e fr deferred).1.buffers = f.buffers.plus [fr.buf] := by
  unfold Floor.process Proc.conclude
  dsimp only
  split <;> simp

/-- The frame at the head of a deferred list taken off, with its buffer (R41). -/
theorem Floor.buffers_takeDeferred {f : Floor} {l : LaneIx} {fr : Frame} {rest : List Frame}
    (h : (f.lane l).deferred = fr :: rest) :
    (f.modLane l (fun x => { x with deferred := rest })).buffers.plus [fr.buf] = f.buffers := by
  refine Bag.less (f.buffers_modLane l _) ?_
  rw [Lane.buffers, h]
  exact List.Perm.refl _

@[simp] theorem Floor.buffers_passUpTo (n : Nat) : (f.passUpTo e l n).buffers = f.buffers := by
  induction n generalizing f with
  | zero => rfl
  | succ n ih =>
    unfold Floor.passUpTo
    split
    · rfl
    · rename_i hd
      split
      · rw [ih, Floor.buffers_process, Floor.buffers_takeDeferred hd]
      · rfl

@[simp] theorem Floor.buffers_pass : (f.pass e l).buffers = f.buffers := by
  simp [Floor.pass]

@[simp] theorem Floor.buffers_processNow (fr : Frame) :
    (f.processNow e fr).buffers = f.buffers.plus [fr.buf] := by
  unfold Floor.processNow
  dsimp only
  split <;> simp

@[simp] theorem Floor.buffers_sweep : (f.sweep e).buffers = f.buffers := by
  have visit (a : Floor × Option LaneIx) (l : LaneIx) :
      (Floor.visit e a l).1.buffers = a.1.buffers := by
    unfold Floor.visit
    split
    · rfl
    · exact Floor.buffers_pass e l a.1
  have visits := foldl_same (v := fun a : Floor × Option LaneIx => a.1.buffers) visit
    (allLanes.map (fun i => f.releasePtr + i)) (f, none)
  unfold Floor.sweep
  revert visits
  generalize (allLanes.map (fun i => f.releasePtr + i)).foldl (Floor.visit e) (f, none) = r
  intro visits
  dsimp only
  split
  · exact visits
  · exact visits

@[simp] theorem Floor.buffers_countAt (g : LaneCounters → LaneCounters) :
    (f.countAt l g).buffers = f.buffers := by
  simp [Floor.countAt]

@[simp] theorem Floor.buffers_accept (seq : Seq) (gap : Nat) (lost : Option Nat) :
    (f.accept e l seq gap lost).buffers = f.buffers := by
  unfold Floor.accept
  dsimp only
  split <;> simp

@[simp] theorem Floor.buffers_refuseFrame (b : BufId) :
    (f.refuseFrame l b).buffers = f.buffers.plus [b] := by
  simp [Floor.refuseFrame]

/-- A frame deferred: its buffer is then on the lane's deferred list (R148). -/
theorem Floor.buffers_defer (fr : Frame) :
    (f.modLane l (fun x => { x with deferred := x.deferred ++ [fr] })).buffers =
      f.buffers.plus [fr.buf] := by
  refine Bag.more (f.buffers_modLane l _) ?_
  rw [Lane.buffers, List.map_append]
  exact List.perm_append_comm

@[simp] theorem Floor.buffers_wellFormed (seq : Seq) (gap : Nat) (b : BufId) (body : LaneFrame) :
    (f.wellFormed e l seq gap b body).buffers = f.buffers.plus [b] := by
  unfold Floor.wellFormed
  dsimp only
  split
  · split
    · rw [Floor.buffers_defer, Floor.buffers_accept]
    · simp
  · split <;> simp

/-- Whatever becomes of a received frame, its buffer joins those of the floor (R139 to R149). -/
@[simp] theorem Floor.buffers_intake (raw : RawFrame) (b : BufId) :
    (f.intake e l raw b).buffers = f.buffers.plus [b] := by
  unfold Floor.intake
  dsimp only
  split
  · simp
  · split
    · simp [Floor.malformed]
    · simp

end

end Sys2Proof.Machine
end

section
/-! PROOFS. What the operations of the part do to the buffers it holds: every one but the part reset keeps
them (R123, R127, R133, R151, R152, R160, R167, R168). -/

namespace Sys2Proof.Machine

/-! ## The floor and the lines of the part -/

theorem State.buffers_congr {s t : State} (hf : t.floor.buffers = s.floor.buffers)
    (hl : ∀ n, (t.line n).slot = (s.line n).slot) : t.buffers = s.buffers := by
  funext b
  simp only [State.buffers, Line.buffers, hf, hl]

/-- A change of the floor counts by what it does to the buffers there. -/
theorem State.buffers_withFloor (s : State) {f : Floor} {bs : List BufId}
    (h : f.buffers = s.floor.buffers.plus bs) :
    State.buffers { s with floor := f } = s.buffers.plus bs := by
  funext b
  have swap {old new all : Nat} (slots : Nat) (h : all = old + new) :
      all + slots = old + slots + new := by omega
  exact swap _ (congrFun h b)

theorem State.buffers_withFloor_same (s : State) {f : Floor} (h : f.buffers = s.floor.buffers) :
    State.buffers { s with floor := f } = s.buffers :=
  State.buffers_congr h fun _ => rfl

@[simp] theorem State.buffers_onFloor (s : State) {g : Floor → Floor}
    (h : (g s.floor).buffers = s.floor.buffers) : (s.onFloor g).buffers = s.buffers :=
  s.buffers_withFloor_same h

@[simp] theorem State.buffers_onDesk (s : State) (g : Desk → Desk) :
    (s.onDesk g).buffers = s.buffers := rfl

theorem State.buffers_modLine (s : State) (n : LineIx) (g : Line → Line) :
    (s.modLine n g).buffers.plus (s.line n).buffers = s.buffers.plus (g (s.line n)).buffers := by
  funext b
  have swap {old new old' new' : Nat} (floor : Nat) (h : new + old = old' + new') :
      floor + new + old = floor + old' + new' := by omega
  exact swap _ (congrFun (bagOf_upd Line.buffers s.lines n (g (s.line n))) b)

@[simp] theorem State.buffers_modLine_same (s : State) (n : LineIx) {g : Line → Line}
    (hg : ∀ x, (g x).slot = x.slot) : (s.modLine n g).buffers = s.buffers := by
  have h := s.buffers_modLine n g
  rw [Line.buffers, Line.buffers, hg] at h
  exact Bag.plus_cancel h

/-- A buffer put into an answer slot that is empty (R123). -/
theorem State.buffers_fillSlot {s : State} {n : LineIx} (h : (s.line n).slot = none) (b : BufId) :
    (s.modLine n (fun x => { x with slot := some b })).buffers = s.buffers.plus [b] := by
  refine Bag.more (s.buffers_modLine n _) ?_
  rw [Line.buffers, Line.buffers, h]
  exact List.Perm.refl _

/-- A buffer taken out of its answer slot. -/
theorem State.buffers_emptySlot {s : State} {n : LineIx} {b : BufId} {g : Line → Line}
    (h : (s.line n).slot = some b) (hg : ∀ x, (g x).slot = none) :
    (s.modLine n g).buffers.plus [b] = s.buffers := by
  refine Bag.less (s.buffers_modLine n g) ?_
  rw [Line.buffers, Line.buffers, h, hg]
  exact List.Perm.refl _

@[simp] theorem State.buffers_flagPart (s : State) : s.flagPart.buffers = s.buffers := rfl
@[simp] theorem State.buffers_hunt (s : State) : s.hunt.buffers = s.buffers := rfl
@[simp] theorem State.buffers_idleTx (s : State) : s.idleTx.buffers = s.buffers := rfl
@[simp] theorem State.buffers_withLink (s : State) (x : Link) :
    State.buffers { s with link := x } = s.buffers := rfl

/-! ## The end of an event (R158, R165 to R167) -/

@[simp] theorem State.buffers_arbiter (s : State) : s.arbiter.buffers = s.buffers := by
  have hc := s.chosen_arbiter
  have hlines : s.arbiter.lines = s.lines := by
    unfold State.arbiter
    split
    · exact s.lines_choose
    · rfl
  have hfree : s.arbiter.floor.free = s.floor.free := by rw [hc.floor]
  have hlanes : s.arbiter.floor.lanes = s.floor.lanes := by rw [hc.floor]
  refine State.buffers_congr (Floor.buffers_congr hfree (fun l => ?_) fun c => ?_) fun n => ?_
  · rw [Floor.lane_congr hlanes]
  · rw [hc.chan c]
  · rw [State.line, hlines]
    rfl

@[simp] theorem State.buffers_settle (s : State) : s.settle.buffers = s.buffers :=
  s.buffers_onFloor (Floor.buffers_settle s.env s.floor)

@[simp] theorem State.buffers_finish (s : State) : s.finish.buffers = s.buffers := by
  simp [State.finish]

/-! ## Turns (R122 to R125, R131, R133, R134) -/

/-- The head of the free list taken off. -/
theorem Floor.buffers_freeHead {f : Floor} {b : BufId} {rest : List BufId} (h : f.free = b :: rest) :
    f.buffers = (Floor.buffers { f with free := rest }).plus [b] := by
  have hlast := Floor.buffers_withFree { f with free := rest } [b]
  rw [← hlast]
  funext c
  have hfree : f.free.count c = (rest ++ [b]).count c := by
    rw [h]
    exact (List.perm_append_comm (l₁ := [b])).count_eq c
  unfold Floor.buffers
  rw [hfree]
  rfl

/-- A claim moves the buffer at the head of the free list to the answer slot (R123, R151). -/
@[simp] theorem State.buffers_claim (s : State) (n : LineIx) : (s.claim n).buffers = s.buffers := by
  cases hslot : (s.line n).slot with
  | some b => rw [State.claim_held hslot]
  | none =>
    cases hfree : s.floor.free with
    | nil => rw [State.claim_empty hslot hfree]
    | cons b rest =>
      have hhead : s.buffers =
          (State.buffers { s with floor := { s.floor with free := rest } }).plus [b] :=
        State.buffers_withFloor { s with floor := { s.floor with free := rest } }
          (Floor.buffers_freeHead hfree)
      have hclaim : (s.claim n).buffers = State.buffers ({ s with floor :=
          { s.floor with free := rest } }.modLine n (fun x => { x with slot := some b })) := by
        rw [State.claim_takes hslot hfree]
        rfl
      rw [hclaim, hhead]
      refine State.buffers_fillSlot ?_ b
      exact hslot

@[simp] theorem State.buffers_startTurn (s : State) (n : LineIx) (d : DropIx) :
    (s.startTurn n d).buffers = s.buffers := by
  have hclaim := s.buffers_claim n
  unfold State.startTurn
  revert hclaim
  generalize s.claim n = t
  intro hclaim
  dsimp only
  refine (State.buffers_modLine_same _ _ fun _ => by rfl).trans ?_
  split
  · exact (t.buffers_withFloor_same (Floor.buffers_modLane_same _ _ fun _ => by rfl)).trans hclaim
  · exact hclaim

theorem Line.slot_advance (due : Bool) (x : Line) : (x.advance due).slot = x.slot := by
  unfold Line.advance
  split <;> rfl

@[simp] theorem State.buffers_rotate (n : LineIx) (k : Nat) (s : State) :
    (State.rotate n k s).buffers = s.buffers := by
  induction k generalizing s with
  | zero => rfl
  | succ k ih =>
    have advance (due : Bool) : (s.modLine n (Line.advance due)).buffers = s.buffers :=
      s.buffers_modLine_same n (Line.slot_advance due)
    unfold State.rotate
    dsimp only
    split
    · rw [State.buffers_startTurn, advance]
    · split
      · exact (State.buffers_modLine_same _ _ fun _ => by rfl).trans (advance _)
      · rw [ih, advance]

/-- An attention round keeps the buffers, where what follows it when no drop is left keeps them. -/
theorem State.buffers_attend_getD {s t : State} (n : LineIx) (from_ : Nat)
    (h : t.buffers = s.buffers) : ((s.attend n from_).getD t).buffers = s.buffers := by
  unfold State.attend
  split
  · exact h
  · exact (State.buffers_startTurn _ _ _).trans (s.buffers_modLine_same n fun _ => rfl)

/-- A line that enters QUIET returns the buffer of its answer slot (R133, R151). -/
@[simp] theorem State.buffers_enterQuiet (s : State) (n : LineIx) :
    (s.enterQuiet n).buffers = s.buffers := by
  unfold State.enterQuiet
  dsimp only
  cases hslot : (s.line n).slot with
  | none =>
    have h := s.buffers_modLine n (fun x => { x with
      state := .quiet, quietPending := false, slot := none, turn := none
      attention := .inactive, idleWait := false })
    rw [Line.buffers, Line.buffers, hslot] at h
    exact Bag.plus_cancel h
  | some b =>
    have hback := s.buffers_withFloor (s.floor.buffers_giveBack b)
    refine Bag.plus_cancel (Eq.trans (State.buffers_emptySlot (b := b) ?_ fun _ => rfl) hback)
    exact hslot

theorem State.buffers_resume (s t : State) (n : LineIx) : (s.resume n t).buffers = t.buffers := by
  unfold State.resume
  split
  · rfl
  · exact State.buffers_rotate n _ t

@[simp] theorem State.buffers_nextTurn (s : State) (n : LineIx) :
    (s.nextTurn n).buffers = s.buffers := by
  have round (from_ : Nat) : ((s.attend n from_).getD
      (s.resume n (s.modLine n (fun x => { x with attention := .inactive })))).buffers = s.buffers :=
    State.buffers_attend_getD n from_
      ((s.buffers_resume _ n).trans (s.buffers_modLine_same n fun _ => rfl))
  unfold State.nextTurn
  dsimp only
  split
  · exact s.buffers_enterQuiet n
  · split
    · exact s.buffers_resume s n
    · exact round 0
    · exact round _

@[simp] theorem State.buffers_beginLines (s : State) : s.beginLines.buffers = s.buffers :=
  foldl_same (v := State.buffers) (fun t n => t.buffers_nextTurn n) allLines s

@[simp] theorem State.buffers_prepareLine (s : State) (n : LineIx) :
    (s.prepareLine n).buffers = s.buffers := by
  rw [State.prepareLine_eq]
  refine foldl_same (v := State.buffers) (fun t d => ?_) allDrops s
  have hlane : State.buffers { t with floor := t.floor.modLane (laneOf n d) Lane.prepared } =
      t.buffers := t.buffers_withFloor_same (Floor.buffers_modLane_same _ _ fun _ => rfl)
  unfold State.prepareDrop
  dsimp only
  split
  · exact hlane
  · exact hlane

/-! ## The end of a turn (R127 to R130) -/

@[simp] theorem Floor.buffers_troubleChanged (e : Env) (l : LaneIx) (was is : Bool) (f : Floor) :
    (f.troubleChanged e l was is).buffers = f.buffers := by
  unfold Floor.troubleChanged
  dsimp only
  split
  · split <;> simp
  · split
    · split <;> split <;> simp
    · rfl

@[simp] theorem State.buffers_judgeDrop (s : State) (n : LineIx) (d : DropIx) (o : TurnEnd) :
    (s.judgeDrop n d o).buffers = s.buffers := by
  have judged (f : Floor) (hf : f.buffers = s.floor.buffers) :
      (State.modLine { s with floor := f } n (fun x =>
        { x with counters := x.counters.byOutcome o })).buffers = s.buffers :=
    (State.buffers_modLine_same _ _ fun _ => by rfl).trans (State.buffers_congr hf fun _ => rfl)
  unfold State.judgeDrop
  dsimp only
  split
  · exact judged _ (by simp)
  · exact judged _ (by simp)

/-- A frame taken in leaves its line's answer slot, and its buffer goes where intake puts it (R127). -/
theorem State.buffers_takeFrame {s : State} {n : LineIx} {b : BufId} (h : (s.line n).slot = some b)
    (e : Env) (l : LaneIx) (raw : RawFrame) :
    (State.modLine { s with floor := s.floor.intake e l raw b } n
      (fun x => { x with slot := none })).buffers = s.buffers := by
  have emptied := State.buffers_emptySlot (s := { s with floor := s.floor.intake e l raw b })
    (g := fun x => { x with slot := none }) h fun _ => rfl
  exact Bag.plus_cancel (emptied.trans (s.buffers_withFloor (Floor.buffers_intake e l s.floor raw b)))

@[simp] theorem State.buffers_takeAnswer (s : State) (n : LineIx) (u : Turn) (a : GoodAnswer) :
    (s.takeAnswer n u a).buffers = s.buffers := by
  have echo : (s.onFloor (fun f => f.modLane (laneOf n u.drop)
      (fun x => { x with echo := some a.echo }))).buffers = s.buffers :=
    s.buffers_onFloor (Floor.buffers_modLane_same _ _ fun _ => rfl)
  unfold State.takeAnswer
  dsimp only
  split
  · exact echo
  · split
    · rename_i hslot
      exact (State.buffers_takeFrame hslot _ _ _).trans echo
    · exact (State.buffers_modLine_same _ _ fun _ => by rfl).trans echo

@[simp] theorem State.buffers_endTurn (s : State) (n : LineIx) :
    (s.endTurn n).buffers = s.buffers := by
  simp [State.endTurn]

@[simp] theorem State.buffers_endDamaged (s : State) (n : LineIx) (d : DropIx) :
    (s.endDamaged n d).buffers = s.buffers := by
  simp [State.endDamaged]

theorem Line.slot_broken (x : Line) : x.broken.slot = x.slot := by
  unfold Line.broken
  split <;> rfl

theorem Line.slot_wake (x : Line) : x.wake.slot = x.slot := by
  unfold Line.wake
  split <;> rfl

@[simp] theorem State.buffers_breakActive (s : State) (n : LineIx) :
    (s.breakActive n).buffers = s.buffers := by
  have broken : (s.modLine n Line.broken).buffers = s.buffers :=
    s.buffers_modLine_same n Line.slot_broken
  unfold State.breakActive
  split
  · split
    · rfl
    · rw [State.buffers_endDamaged, broken]
    · rw [State.buffers_endDamaged, broken]
  · rw [State.buffers_arbiter, State.buffers_nextTurn, broken]

/-! ## Events sent, cut short and discarded (R160, R167, R168) -/

/-- The event at the head of a queue leaves it, and its buffer returns to the free list (R167). -/
theorem Floor.buffers_headReturned {f : Floor} {c : ChanIx} {ev : LaneEvent} {rest : List LaneEvent}
    {g : Channel → Channel} (h : f.chans[c].queue = ev :: rest) (hg : ∀ x, (g x).queue = rest) :
    ((f.modChan c g).giveBack ev.frame.buf).buffers = f.buffers := by
  rw [Floor.buffers_giveBack]
  refine Bag.less (f.buffers_modChan c g) ?_
  rw [Channel.buffers, Channel.buffers, h, hg]
  exact List.Perm.refl _

@[simp] theorem State.buffers_eventSent (s : State) (c : ChanIx) :
    (s.eventSent c).buffers = s.buffers := by
  unfold State.eventSent
  split
  · simp
  · rename_i ev rest hq
    rw [State.buffers_finish]
    refine (State.buffers_onFloor _ ?_).trans s.buffers_idleTx
    rw [Floor.buffers_sweep]
    exact Floor.buffers_headReturned hq fun _ => rfl

@[simp] theorem State.buffers_cutShort (s : State) (m : TxMessage) :
    (s.cutShort m).buffers = s.buffers := by
  unfold State.cutShort
  split
  case h_6 c _ =>
    split
    · rename_i hq
      exact s.buffers_onFloor (Floor.buffers_headReturned hq fun _ => rfl)
    · rfl
  all_goals rfl

theorem Channel.queue_linkLost (c : Channel) : c.linkLost.queue = c.queue := by
  unfold Channel.linkLost
  split <;> rfl

@[simp] theorem State.buffers_goDown (s : State) : s.goDown.buffers = s.buffers := by
  have lost (u : State) : Floor.buffers { u.floor with
      chans := Vector.ofFn (fun c => (u.floor.chans[c]).linkLost) } = u.floor.buffers :=
    Floor.buffers_congr rfl (fun _ => rfl) fun c => by simp [Channel.queue_linkLost]
  unfold State.goDown
  cases s.link.tx with
  | none =>
    dsimp only
    rw [State.buffers_onDesk]
    split
    · exact State.buffers_congr (s := s) (lost s) fun _ => rfl
    · exact State.buffers_congr (s := s) (lost s) fun _ => rfl
  | some m =>
    refine Eq.trans ?_ (s.buffers_cutShort m)
    dsimp only
    generalize s.cutShort m = u
    rw [State.buffers_onDesk]
    split
    · exact State.buffers_congr (s := u) (lost u) fun _ => rfl
    · exact State.buffers_congr (s := u) (lost u) fun _ => rfl

/-- The discarded events of a disabled channel give their buffers back (R151, R160). -/
@[simp] theorem State.buffers_disableChannel (s : State) (c : ChanIx) :
    (s.disableChannel c).buffers = s.buffers := by
  have discarded (k : Nat) (g : Channel → Channel)
      (hg : ∀ x, (g x).queue = s.floor.chans[c].queue.take k) :
      (s.floor.modChan c g).buffers.plus ((s.floor.chans[c].queue.drop k).map (·.frame.buf)) =
        s.floor.buffers := by
    refine Bag.less (s.floor.buffers_modChan c g) ?_
    refine List.Perm.trans (.of_eq ?_) List.perm_append_comm
    rw [Channel.buffers, Channel.buffers, hg, ← List.map_append, List.take_append_drop]
  unfold State.disableChannel
  dsimp only
  refine (State.buffers_onFloor _ (Floor.buffers_sweep _ _)).trans ?_
  rw [State.buffers_flagPart]
  refine State.buffers_onFloor _ ?_
  rw [Floor.buffers_withFree]
  exact discarded _ _ fun _ => rfl

/-! ## The part reset (R191) -/

theorem State.buffersInPlace_reset : State.reset.buffersInPlace :=
  invariantsHoldAtReset.2.2.2

/-- A part reset puts every buffer back on the free list, and begins the first turns from there. -/
theorem State.buffersInPlace_partReset (s : State) (cause : ResetCause) :
    (s.partReset cause).buffersInPlace := by
  refine State.buffersInPlace_of_eq State.buffersInPlace_reset ?_
  unfold State.partReset
  rw [State.buffers_arbiter, State.buffers_beginLines]
  rfl

theorem State.buffersInPlace_responseSent {s : State} (h : s.buffersInPlace) :
    s.responseSent.buffersInPlace := by
  unfold State.responseSent
  dsimp only
  split
  · exact State.buffersInPlace_partReset _ _
  · exact State.buffersInPlace_of_eq h (State.buffers_finish _)

end Sys2Proof.Machine
end

section
/-! PROOFS. Every step keeps each frame buffer in exactly one place (R150, R152): the requests one by one, then
the commands. -/

namespace Sys2Proof.Machine

/-! ## Requests of channels, lanes and lines (R5 to R9, R133, R134, R136, R160 to R162) -/

theorem Channel.queue_grant (n : Nat) (c : Channel) : (c.grant n).queue = c.queue := by
  unfold Channel.grant
  split <;> rfl

theorem State.buffers_runCredit (channel count : Byte) (s : State) :
    (s.runCredit channel count).state.buffers = s.buffers := by
  unfold State.runCredit
  split
  · rfl
  · split
    · rfl
    · split
      · rfl
      · rename_i c _ _ _
        have granted : (s.onFloor (fun f => f.modChan c (Channel.grant count.toNat))).buffers =
            s.buffers := s.buffers_onFloor (Floor.buffers_modChan_same _ c (Channel.queue_grant _))
        dsimp only [State.done]
        split
        · exact granted
        · exact granted

theorem State.buffers_runChannelSet (channel enable : Byte) (s : State) :
    (s.runChannelSet channel enable).state.buffers = s.buffers := by
  unfold State.runChannelSet
  split
  · split
    · rw [State.state_done, State.buffers_flagPart]
      exact s.buffers_onFloor (Floor.buffers_modChan_same _ _ fun _ => by rfl)
    · rfl
    · rfl
    · rfl
    · rw [State.state_done, State.buffers_disableChannel]
    · rw [State.state_done, State.buffers_disableChannel]
  · rfl

theorem State.buffers_runMapSet (kind channel : Byte) (s : State) :
    (s.runMapSet kind channel).state.buffers = s.buffers := by
  unfold State.runMapSet
  split
  · exact State.buffers_onFloor _ (Floor.buffers_sweep _ _)
  · rfl

@[simp] theorem Floor.buffers_raiseLink (e : Env) (l : LaneIx) (f : Floor) :
    (f.raiseLink e l).buffers = f.buffers := by
  unfold Floor.raiseLink
  split
  · simp
  · rfl

theorem State.buffers_runLaneOpen (lane : Byte) (s : State) :
    (s.runLaneOpen lane).state.buffers = s.buffers := by
  unfold State.runLaneOpen
  split
  · rfl
  · split
    · split
      · rfl
      · exact (State.buffers_modLine_same _ _ Line.slot_wake).trans (s.buffers_onFloor (by simp))
    · exact s.buffers_onFloor (by simp)
    · exact s.buffers_onFloor (by simp)
    · rfl
    · rfl
    · rfl

theorem Floor.buffers_closeLane (l : LaneIx) (f : Floor) : (f.closeLane l).buffers = f.buffers := by
  unfold Floor.closeLane
  split <;> simp

theorem Floor.buffers_forceClose (p : Params) (l : LaneIx) (f : Floor) :
    (f.forceClose p l).buffers = f.buffers := by
  unfold Floor.forceClose
  dsimp only
  split <;> simp

theorem State.buffers_runLaneClose (lane force : Byte) (s : State) :
    (s.runLaneClose lane force).state.buffers = s.buffers := by
  unfold State.runLaneClose
  split
  · exact s.buffers_onFloor (Floor.buffers_closeLane _ _)
  · exact s.buffers_onFloor (Floor.buffers_forceClose _ _ _)
  · rfl

theorem Lane.deferred_derive (force : Bool) (x : Lane) : (x.derive force).deferred = x.deferred :=
  (congrArg Lane.deferred (x.core_derive force) :)

theorem Floor.buffers_resetLane (e : Env) (l : LaneIx) (f : Floor) :
    (f.resetLane e l).buffers = f.buffers := by
  have cleared (g : Floor) : (g.modLane l Lane.cleared).buffers = g.buffers :=
    g.buffers_modLane_same l fun _ => rfl
  unfold Floor.resetLane
  dsimp only
  rw [Floor.buffers_modLane_same _ _ (Lane.deferred_derive true)]
  split <;> split <;> simp [cleared]

theorem State.buffers_runLaneReset (lane : Byte) (s : State) :
    (s.runLaneReset lane).state.buffers = s.buffers := by
  unfold State.runLaneReset
  split
  · rfl
  · exact s.buffers_onFloor (Floor.buffers_resetLane _ _ _)

theorem State.buffers_runInputSet (lane enable edge : Byte) (s : State) :
    (s.runInputSet lane enable edge).state.buffers = s.buffers := by
  unfold State.runInputSet
  split
  · exact s.buffers_onFloor (Floor.buffers_modLane_same _ _ fun _ => by rfl)
  · rfl

theorem State.buffers_runLineQuiet (line : Byte) (s : State) :
    (s.runLineQuiet line).state.buffers = s.buffers := by
  unfold State.runLineQuiet
  split
  · rfl
  · dsimp only
    split
    · rfl
    · rfl
    · split
      · rfl
      · split
        · rfl
        · split
          · exact s.buffers_enterQuiet _
          · exact s.buffers_modLine_same _ fun _ => by rfl

theorem State.buffers_runLineWake (line : Byte) (s : State) :
    (s.runLineWake line).state.buffers = s.buffers := by
  unfold State.runLineWake
  split
  · rfl
  · exact s.buffers_modLine_same _ Line.slot_wake

/-! ## Requests of the tables (R88, R105 to R111, R114 to R116) -/

@[simp] theorem State.buffers_setBank (s : State) (bk : BankId) (x : Bank) :
    (s.setBank bk x).buffers = s.buffers := rfl
@[simp] theorem State.buffers_setBankState (s : State) (bk : BankId) (st : BankState) :
    (s.setBankState bk st).buffers = s.buffers := rfl

theorem State.buffers_runLoadBegin (bank watch : Byte) (groups : BitVec 16) (s : State) :
    (s.runLoadBegin bank groups watch).state.buffers = s.buffers := by
  unfold State.runLoadBegin
  split
  · rfl
  · split
    · rfl
    · split
      · rfl
      · split
        · rfl
        · split <;> rfl

theorem State.buffers_runLoadGroups (bank : Byte) (es : List GroupWrite) (s : State) :
    (s.runLoadGroups bank es).state.buffers = s.buffers := by
  unfold State.runLoadGroups
  split
  · rfl
  · split
    · rfl
    · split
      · rfl
      · exact s.buffers_setBank _ _

theorem State.buffers_runLoadWatch (bank : Byte) (es : List WatchWrite) (s : State) :
    (s.runLoadWatch bank es).state.buffers = s.buffers := by
  unfold State.runLoadWatch
  split
  · rfl
  · split
    · rfl
    · split
      · rfl
      · exact s.buffers_setBank _ _

theorem State.buffers_runLoadEnd (bank : Byte) (s : State) :
    (s.runLoadEnd bank).state.buffers = s.buffers := by
  unfold State.runLoadEnd
  split
  · rfl
  · dsimp only
    split
    · rfl
    · split <;> rfl

theorem State.buffers_runLoadAbort (bank : Byte) (s : State) :
    (s.runLoadAbort bank).state.buffers = s.buffers := by
  unfold State.runLoadAbort
  split
  · rfl
  · split <;> rfl

theorem State.buffers_runCommit (bank : Byte) (s : State) :
    (s.runCommit bank).state.buffers = s.buffers := by
  unfold State.runCommit
  split
  · rfl
  · split
    · rw [State.state_done, State.buffers_setBankState]
      split <;> rfl
    · rfl

theorem Floor.buffers_closeSessions (p : Params) (held : Floor → LaneIx → Bool) (f : Floor) :
    (f.closeSessions p held).buffers = f.buffers :=
  foldl_same (v := Floor.buffers) (fun g l => by split <;> simp) allLanes f

theorem Floor.buffers_raiseLevel (n : BadgeNo) (lv : Level) (f : Floor) :
    (f.raiseLevel n lv).buffers = f.buffers :=
  foldl_same (v := Floor.buffers) (fun g l => by split <;> simp) allLanes f

theorem State.buffers_runBadgeSet (badge : BadgeNo) (level : Byte) (s : State) :
    (s.runBadgeSet badge level).state.buffers = s.buffers := by
  unfold State.runBadgeSet
  split
  · rfl
  · split
    · split
      · rfl
      · split
        · exact (s.putBadge _ _).buffers_onFloor (Floor.buffers_closeSessions _ _ _)
        · exact (s.putBadge _ _).buffers_onFloor (Floor.buffers_raiseLevel _ _ _)
    · split <;> rfl

theorem State.buffers_runBadgeClear (mode : Byte) (badge : BadgeNo) (s : State) :
    (s.runBadgeClear mode badge).state.buffers = s.buffers := by
  unfold State.runBadgeClear
  split
  · split
    · rfl
    · exact (s.withBadges _).buffers_onFloor (Floor.buffers_closeSessions _ _ _)
  · exact (s.withBadges _).buffers_onFloor (Floor.buffers_closeSessions _ _ _)
  · rfl

theorem State.buffers_runZoneSet (console : Byte) (lanes : LaneSet) (s : State) :
    (s.runZoneSet console lanes).state.buffers = s.buffers := by
  unfold State.runZoneSet
  split
  · rfl
  · rw [State.state_done, State.buffers_onDesk]
    rfl

/-! ## Requests of the consoles (R66 to R74) -/

theorem State.buffers_runConsoleOn (console : Byte) (s : State) :
    (s.runConsoleOn console).state.buffers = s.buffers := by
  unfold State.runConsoleOn
  split
  · rfl
  · split
    · rw [State.state_done, State.buffers_onDesk]
    · rfl
    · rfl
    · rfl

theorem State.buffers_runConsoleOff (console : Byte) (s : State) :
    (s.runConsoleOff console).state.buffers = s.buffers := by
  unfold State.runConsoleOff
  split
  · rfl
  · split
    · rfl
    · rw [State.state_done, State.buffers_onDesk]
    · rw [State.state_done, State.buffers_onDesk]
    · rw [State.state_done, State.buffers_onDesk]

theorem State.buffers_withRecord {s : State} {console slot issue : Byte}
    {run : ConsoleIx → SlotIx → Record → Executed}
    (h : ∀ c k r, (run c k r).state.buffers = s.buffers) :
    (s.withRecord console slot issue run).state.buffers = s.buffers := by
  unfold State.withRecord
  split
  · split
    · exact h _ _ _
    · rfl
  · rfl

theorem State.buffers_runClaim (console slot issue : Byte) (s : State) :
    (s.runClaim console slot issue).state.buffers = s.buffers :=
  State.buffers_withRecord fun c k r => by
    split
    case h_3 | h_4 => split <;> rfl
    all_goals rfl

theorem State.buffers_runDecline (console slot issue : Byte) (s : State) :
    (s.runDecline console slot issue).state.buffers = s.buffers :=
  State.buffers_withRecord fun c k r => by
    split
    case h_1 => split <;> rfl
    all_goals rfl

theorem State.buffers_runRelease (console slot issue : Byte) (s : State) :
    (s.runRelease console slot issue).state.buffers = s.buffers :=
  State.buffers_withRecord fun c k r => by
    split <;> rfl

theorem Lane.deferred_clearedRemotely (r : Reason) (x : Lane) :
    (x.clearedRemotely r).deferred = x.deferred := by
  unfold Lane.clearedRemotely
  split <;> rfl

theorem Floor.buffers_clearRemotely (e : Env) (l : LaneIx) (r : Reason) (f : Floor) :
    (f.clearRemotely e l r).buffers = f.buffers := by
  have cleared : (f.modLane l (Lane.clearedRemotely r)).buffers = f.buffers :=
    f.buffers_modLane_same l (Lane.deferred_clearedRemotely r)
  unfold Floor.clearRemotely
  dsimp only
  split <;> simp [cleared]

theorem State.buffers_runResolve (console slot issue action : Byte) (s : State) :
    (s.runResolve console slot issue action).state.buffers = s.buffers := by
  unfold State.runResolve
  split
  · rfl
  · refine State.buffers_withRecord fun c k r => ?_
    split
    · rfl
    · split
      · rfl
      · split
        · rfl
        · split
          · rfl
          · exact s.buffers_onFloor (Floor.buffers_clearRemotely _ _ _ _)

/-! ## Reads and settings (R183 to R187) -/

theorem State.buffers_answerRead (s : State) (results : Option (List Byte)) :
    (s.answerRead results).state.buffers = s.buffers := by
  cases results <;> rfl

theorem State.buffers_clearCounters (s : State) (g : CounterGroup) :
    (s.clearCounters g).buffers = s.buffers := by
  cases g with
  | lane l => exact s.buffers_onFloor (Floor.buffers_modLane_same _ _ fun _ => by rfl)
  | line n => exact s.buffers_modLine_same n fun _ => by rfl
  | part =>
    refine State.buffers_congr (Floor.buffers_congr rfl (fun _ => rfl) fun c => ?_) fun _ => rfl
    simp [State.clearCounters]

theorem State.buffers_runReadCounters (group clear : Byte) (s : State) :
    (s.runReadCounters group clear).state.buffers = s.buffers := by
  unfold State.runReadCounters
  split
  · dsimp only
    split
    · exact s.buffers_clearCounters _
    · rfl
  · rfl

theorem State.buffers_runSetParam (param : Byte) (value : BitVec 24) (s : State) :
    (s.runSetParam param value).state.buffers = s.buffers := by
  unfold State.runSetParam
  split <;> rfl

/-! ## The forms of commands -/

@[simp] theorem State.buffers_loseRequest (s : State) : s.loseRequest.buffers = s.buffers := by
  unfold State.loseRequest
  dsimp only
  split <;> rfl

@[simp] theorem State.buffers_enterPhase (s : State) (n : LineIx) (ph : Phase) :
    (s.enterPhase n ph).buffers = s.buffers :=
  s.buffers_modLine_same n fun _ => rfl

@[simp] theorem State.buffers_countStrays (s : State) (n : LineIx) (k : Nat) :
    (s.modLine n (Line.countStrays k)).buffers = s.buffers :=
  s.buffers_modLine_same n fun _ => rfl

/-- In the next state of an outcome, where it has one, each buffer is in exactly one place. -/
def NextInPlace (o : Host.Outcome State Fault Refusal) : Prop := ∀ t, o = .next t → t.buffersInPlace

theorem nextInPlace_next {t : State} (h : t.buffersInPlace) : NextInPlace (.next t) := by
  rintro _ ⟨⟩
  exact h

section
variable {s : State} (h : s.buffersInPlace)
include h

theorem nextInPlace_whenRunning {f : State → State} (hf : (f s).buffersInPlace) :
    NextInPlace (whenRunning s f) := by
  refine nextInPlace_next ?_
  split
  · exact h
  · exact hf

theorem nextInPlace_whenRunning_same {f : State → State} (hf : (f s).buffers = s.buffers) :
    NextInPlace (whenRunning s f) :=
  nextInPlace_whenRunning h (State.buffersInPlace_of_eq h hf)

theorem nextInPlace_whenUp {f : State → State} (hf : (f s).buffers = s.buffers) :
    NextInPlace (whenUp s f) := by
  refine nextInPlace_whenRunning_same h ?_
  split
  · exact hf
  · rfl

theorem nextInPlace_whenDue {due : State → Bool} {f : State → State}
    (hf : (f s).buffers = s.buffers) : NextInPlace (whenDue due s f) := by
  refine nextInPlace_whenRunning_same h ?_
  split
  · rw [State.buffers_finish, hf]
  · rfl

theorem nextInPlace_whenPhase {n : LineIx} {ph : Phase} {f : Turn → State → State}
    (hf : ∀ u, (f u s).buffers = s.buffers) : NextInPlace (whenPhase n ph s f) := by
  refine nextInPlace_whenRunning_same h ?_
  split
  · exact hf _
  · rfl

/-- A request keeps the buffers in place where its execution keeps them (R179, R180). -/
theorem nextInPlace_request {kind : BitVec 6} {tag : Byte} {run : State → Executed}
    (hrun : ∀ u, (run u).state.buffers = u.buffers) : NextInPlace (request kind tag run s) := by
  refine nextInPlace_whenRunning_same h ?_
  unfold State.take
  split
  · rfl
  · split
    · rfl
    · split
      · simp
      · rw [State.buffers_finish]
        exact hrun s.hunt

/-! ## Resets, the time base and the link (R136, R156, R168, R169, R172, R191) -/

theorem nextInPlace_resetPinLow : NextInPlace (execResetPinLow s) := by
  have idle (t : State) (n : LineIx) : (t.modLine n Line.idle).buffers = t.buffers :=
    t.buffers_modLine_same n fun _ => rfl
  exact nextInPlace_whenRunning_same h (foldl_same (v := State.buffers) idle allLines s)

theorem nextInPlace_resetPinHigh : NextInPlace (execResetPinHigh s) := by
  refine nextInPlace_next ?_
  split
  · exact h
  · exact State.buffersInPlace_partReset _ _

theorem nextInPlace_tick (linkOk : Bool) : NextInPlace (execTick linkOk s) := by
  have ticked : s.floor.tick.buffers = s.floor.buffers := by
    unfold Floor.tick
    refine Floor.buffers_congr rfl (fun l => ?_) fun _ => rfl
    simp [Floor.lane, Lane.tick]
  refine nextInPlace_whenRunning_same h ?_
  refine State.buffers_congr ticked fun n => ?_
  simp [State.line]

theorem nextInPlace_linkDown : NextInPlace (execLinkDown s) := by
  refine nextInPlace_whenRunning h ?_
  split
  · dsimp only
    split
    · exact State.buffersInPlace_partReset _ _
    · exact State.buffersInPlace_of_eq h (by simp)
  · exact h

theorem nextInPlace_linkUp : NextInPlace (execLinkUp s) := by
  refine nextInPlace_whenRunning_same h ?_
  split
  · exact State.buffers_arbiter _
  · rfl

theorem nextInPlace_callInputSample (levels : LaneSet) :
    NextInPlace (execCallInputSample levels s) := by
  have sampled (e : Env) (f : Floor) (l : LaneIx) : (f.sampleCall e levels l).buffers = f.buffers := by
    unfold Floor.sampleCall
    dsimp only
    split <;> split <;> simp
  refine nextInPlace_whenRunning_same h ?_
  rw [State.buffers_finish]
  exact s.buffers_onFloor (foldl_same (v := Floor.buffers) (sampled s.env) allLanes s.floor)

/-! ## The receiver and the transmitter (R157, R158, R167, R179 to R181) -/

theorem nextInPlace_startCharacter : NextInPlace (execStartCharacter s) :=
  nextInPlace_whenUp h (s.buffers_withLink _)

theorem nextInPlace_badLength : NextInPlace (execBadLength s) :=
  nextInPlace_whenUp h (s.buffers_withLink _)

theorem nextInPlace_badCheck : NextInPlace (execBadCheck s) :=
  nextInPlace_whenUp h (s.buffers_withLink _)

theorem nextInPlace_wrongChannel : NextInPlace (execWrongChannel s) :=
  nextInPlace_whenUp h (s.buffers_withLink _)

theorem nextInPlace_skippedCharacter : NextInPlace (execSkippedCharacter s) := by
  refine nextInPlace_whenUp h ?_
  split <;> rfl

theorem nextInPlace_truncated : NextInPlace (execTruncated s) := by
  refine nextInPlace_whenUp h ?_
  split
  · rfl
  · split <;> rfl

theorem nextInPlace_lostRequest : NextInPlace (execLostRequest s) := by
  refine nextInPlace_whenUp h ?_
  split
  · rfl
  · split
    · simp
    · rfl

theorem nextInPlace_unknownRequest (tag : Byte) (kind : BitVec 6) (content : List Byte) :
    NextInPlace (execUnknownRequest tag kind content s) := by
  unfold execUnknownRequest
  split
  · exact nextInPlace_next h
  · exact nextInPlace_request h fun _ => rfl

theorem nextInPlace_messageComplete : NextInPlace (execMessageComplete s) := by
  refine nextInPlace_whenRunning_same h ?_
  split <;> simp

theorem nextInPlace_responseComplete : NextInPlace (execResponseComplete s) := by
  refine nextInPlace_whenRunning h ?_
  split
  case h_1 => exact State.buffersInPlace_responseSent h
  all_goals exact h

theorem nextInPlace_laneEventComplete : NextInPlace (execLaneEventComplete s) := by
  refine nextInPlace_whenRunning_same h ?_
  split <;> simp

/-! ## Expiries (R25, R27, R47, R57, R65, R72, R87, R134) -/

theorem nextInPlace_bagSettleExpiry (l : LaneIx) : NextInPlace (execBagSettleExpiry l s) := by
  refine nextInPlace_whenDue h (s.buffers_onFloor ?_)
  unfold Floor.bagSettled
  dsimp only
  split <;> simp

theorem nextInPlace_inactivityExpiry (l : LaneIx) : NextInPlace (execInactivityExpiry l s) :=
  nextInPlace_whenDue h (s.buffers_onFloor (by simp [Floor.wentIdle]))

theorem nextInPlace_presenceExpiry (l : LaneIx) : NextInPlace (execPresenceExpiry l s) := by
  refine nextInPlace_whenDue h (s.buffers_onFloor ?_)
  exact (Floor.buffers_withPresence _ _).trans (by simp)

theorem nextInPlace_refusalMessageExpiry (l : LaneIx) :
    NextInPlace (execRefusalMessageExpiry l s) :=
  nextInPlace_whenDue h (s.buffers_onFloor (by simp))

theorem nextInPlace_escalationExpiry (k : SlotIx) : NextInPlace (execEscalationExpiry k s) :=
  nextInPlace_whenDue h (s.buffers_onDesk _)

theorem nextInPlace_offerExpiry (k : SlotIx) : NextInPlace (execOfferExpiry k s) :=
  nextInPlace_whenDue h (s.buffers_onDesk _)

theorem nextInPlace_claimExpiry (k : SlotIx) : NextInPlace (execClaimExpiry k s) :=
  nextInPlace_whenDue h (s.buffers_onDesk _)

theorem nextInPlace_wakeSettleExpiry (n : LineIx) : NextInPlace (execWakeSettleExpiry n s) := by
  have awake (t : State) : (t.modLine n Line.awake).buffers = t.buffers :=
    t.buffers_modLine_same n fun _ => rfl
  refine nextInPlace_whenRunning_same h ?_
  split
  · simp [awake]
  · rfl

/-! ## The events of a line (R119, R122, R125 to R132) -/

theorem nextInPlace_pollEnd (n : LineIx) : NextInPlace (execPollEnd n s) :=
  nextInPlace_whenPhase h fun _ => s.buffers_enterPhase n _

theorem nextInPlace_answerStart (n : LineIx) : NextInPlace (execAnswerStart n s) :=
  nextInPlace_whenPhase h fun _ => s.buffers_enterPhase n _

theorem nextInPlace_damagedAnswer (n : LineIx) : NextInPlace (execDamagedAnswer n s) :=
  nextInPlace_whenPhase h fun _ => s.buffers_endDamaged n _

theorem nextInPlace_answerTruncated (n : LineIx) : NextInPlace (execAnswerTruncated n s) :=
  nextInPlace_whenPhase h fun _ => s.buffers_endDamaged n _

theorem nextInPlace_miss (n : LineIx) : NextInPlace (execMiss n s) :=
  nextInPlace_whenPhase h fun _ => by simp

theorem nextInPlace_goodAnswer (n : LineIx) (chars : List RxChar) :
    NextInPlace (execGoodAnswer n chars s) := by
  refine nextInPlace_whenPhase h fun u => ?_
  dsimp only
  rw [State.buffers_endTurn, State.buffers_countStrays]
  split
  · exact s.buffers_judgeDrop _ _ _
  · rw [State.buffers_takeAnswer, State.buffers_judgeDrop]

theorem nextInPlace_lineBreak (n : LineIx) : NextInPlace (execLineBreak n s) := by
  refine nextInPlace_whenRunning_same h ?_
  split
  · exact s.buffers_breakActive n
  · exact s.buffers_modLine_same n fun x => Line.slot_wake _
  · rfl

theorem nextInPlace_stray (n : LineIx) (c : RxChar) : NextInPlace (execStray n c s) := by
  refine nextInPlace_whenRunning_same h ?_
  dsimp only
  split
  · split
    · rfl
    · exact s.buffers_countStrays n 1
  · split
    · rfl
    · exact s.buffers_countStrays n 1

theorem nextInPlace_idleRoundEnd (n : LineIx) : NextInPlace (execIdleRoundEnd n s) := by
  refine nextInPlace_whenRunning_same h ?_
  split <;> simp

end

/-- POWER_ON begins from the reset values, whatever the buffers' places were. -/
theorem nextInPlace_powerOn (resetLow : Bool) (s : State) : NextInPlace (execPowerOn resetLow s) := by
  refine nextInPlace_next (State.buffersInPlace_of_eq State.buffersInPlace_reset ?_)
  split
  · rfl
  · rw [State.buffers_arbiter, State.buffers_beginLines]
    rfl

/-! ## Every command -/

/-- Every command keeps each buffer in exactly one place. -/
theorem nextInPlace_exec (i : Instr) {s : State} (h : s.buffersInPlace) : NextInPlace (exec i s) := by
  cases i with
  | powerOn resetLow => exact nextInPlace_powerOn resetLow s
  | resetPinLow => exact nextInPlace_resetPinLow h
  | resetPinHigh => exact nextInPlace_resetPinHigh h
  | tick linkOk => exact nextInPlace_tick h linkOk
  | linkDown => exact nextInPlace_linkDown h
  | linkUp => exact nextInPlace_linkUp h
  | callInputSample levels => exact nextInPlace_callInputSample h levels
  | startCharacter => exact nextInPlace_startCharacter h
  | badLength => exact nextInPlace_badLength h
  | badCheck => exact nextInPlace_badCheck h
  | wrongChannel => exact nextInPlace_wrongChannel h
  | skippedCharacter => exact nextInPlace_skippedCharacter h
  | truncated => exact nextInPlace_truncated h
  | lostRequest => exact nextInPlace_lostRequest h
  | unknownRequest tag kind content => exact nextInPlace_unknownRequest h tag kind content
  | credit _ c n => exact nextInPlace_request h (State.buffers_runCredit c n)
  | channelSetEnable _ c e => exact nextInPlace_request h (State.buffers_runChannelSet c e)
  | channelSetDisable _ c => exact nextInPlace_request h (State.buffers_runChannelSet c 0)
  | mapSet _ k c => exact nextInPlace_request h (State.buffers_runMapSet k c)
  | loadBegin _ b g w => exact nextInPlace_request h (State.buffers_runLoadBegin b w g)
  | loadGroups _ b es => exact nextInPlace_request h (State.buffers_runLoadGroups b es)
  | loadWatch _ b es => exact nextInPlace_request h (State.buffers_runLoadWatch b es)
  | loadEnd _ b => exact nextInPlace_request h (State.buffers_runLoadEnd b)
  | loadAbort _ b => exact nextInPlace_request h (State.buffers_runLoadAbort b)
  | commit _ b => exact nextInPlace_request h (State.buffers_runCommit b)
  | badgeSet _ n lv => exact nextInPlace_request h (State.buffers_runBadgeSet n lv)
  | badgeClear _ m n => exact nextInPlace_request h (State.buffers_runBadgeClear m n)
  | badgeClearAll _ n => exact nextInPlace_request h (State.buffers_runBadgeClear 1 n)
  | zoneSet _ c ls => exact nextInPlace_request h (State.buffers_runZoneSet c ls)
  | laneOpen _ l => exact nextInPlace_request h (State.buffers_runLaneOpen l)
  | laneClose _ l f => exact nextInPlace_request h (State.buffers_runLaneClose l f)
  | laneCloseForce _ l => exact nextInPlace_request h (State.buffers_runLaneClose l 1)
  | laneReset _ l => exact nextInPlace_request h (State.buffers_runLaneReset l)
  | inputSet _ l e g => exact nextInPlace_request h (State.buffers_runInputSet l e g)
  | lineQuiet _ n => exact nextInPlace_request h (State.buffers_runLineQuiet n)
  | lineWake _ n => exact nextInPlace_request h (State.buffers_runLineWake n)
  | consoleOn _ c => exact nextInPlace_request h (State.buffers_runConsoleOn c)
  | consoleOff _ c => exact nextInPlace_request h (State.buffers_runConsoleOff c)
  | claim _ c k i => exact nextInPlace_request h (State.buffers_runClaim c k i)
  | decline _ c k i => exact nextInPlace_request h (State.buffers_runDecline c k i)
  | release _ c k i => exact nextInPlace_request h (State.buffers_runRelease c k i)
  | resolveClear _ c k i a => exact nextInPlace_request h (State.buffers_runResolve c k i a)
  | resolveRefer _ c k i => exact nextInPlace_request h (State.buffers_runResolve c k i 1)
  | readLane | readQueue | readStatus => exact nextInPlace_request h fun u => u.buffers_answerRead _
  | readCounters _ g c => exact nextInPlace_request h (State.buffers_runReadCounters g c)
  | setParam _ p v => exact nextInPlace_request h (State.buffers_runSetParam p v)
  | setTime | partReset => exact nextInPlace_request h fun _ => by rfl
  | messageComplete => exact nextInPlace_messageComplete h
  | responseComplete => exact nextInPlace_responseComplete h
  | laneEventComplete => exact nextInPlace_laneEventComplete h
  | bagSettleExpiry l => exact nextInPlace_bagSettleExpiry h l
  | inactivityExpiry l => exact nextInPlace_inactivityExpiry h l
  | presenceExpiry l => exact nextInPlace_presenceExpiry h l
  | refusalMessageExpiry l => exact nextInPlace_refusalMessageExpiry h l
  | escalationExpiry k => exact nextInPlace_escalationExpiry h k
  | offerExpiry k => exact nextInPlace_offerExpiry h k
  | claimExpiry k => exact nextInPlace_claimExpiry h k
  | wakeSettleExpiry n => exact nextInPlace_wakeSettleExpiry h n
  | pollEnd n => exact nextInPlace_pollEnd h n
  | answerStart n => exact nextInPlace_answerStart h n
  | miss n => exact nextInPlace_miss h n
  | damagedAnswer n => exact nextInPlace_damagedAnswer h n
  | answerTruncated n => exact nextInPlace_answerTruncated h n
  | goodAnswer n chars => exact nextInPlace_goodAnswer h n chars
  | lineBreak n => exact nextInPlace_lineBreak h n
  | stray n c => exact nextInPlace_stray h n c
  | idleRoundEnd n => exact nextInPlace_idleRoundEnd h n

/-- Settles O59: the front command keeps the buffers in place, command by command. -/
theorem buffersStayInPlace : Obligations.BuffersStayInPlace := by
  unfold Obligations.BuffersStayInPlace
  intro s t h ht
  unfold step at ht
  split at ht
  · cases ht
    exact h
  · rename_i c rest _
    exact nextInPlace_exec c (s := { s with pending := rest }) h t ht

end Sys2Proof.Machine
end

section
/-! PROOFS. The traffic channels under the operations of the floor and the part (R159 to R168): a frame that is
forwarded changes queues alone, within their bound (`Floor.queuesFit`), and what changes a channel's state, credit
or pass count keeps them in bounds. -/

namespace Sys2Proof.Machine

/-! ## Channels and their queues (R159, R164) -/

/-- State, credit and pass count of a channel (R159): what a frame that is forwarded leaves as it is. -/
def Channel.standing (c : Channel) : ChanState × Nat × Nat := (c.state, c.credit, c.pass)

/-- The standing of every channel. -/
def Floor.standing (f : Floor) : ChanIx → ChanState × Nat × Nat := fun c => f.chans[c].standing

/-- Every traffic channel of the floor is legal. -/
def Floor.chansLegal (f : Floor) : Prop := ∀ c : ChanIx, f.chans[c].legal

/-- Every traffic channel of the part is legal. -/
def State.chansLegal (s : State) : Prop := s.floor.chansLegal

theorem State.chansLegal_onFloor {s : State} {g : Floor → Floor} (h : (g s.floor).chansLegal) :
    (s.onFloor g).chansLegal := h

theorem State.chansLegal_modLine {s : State} (h : s.chansLegal) (n : LineIx) (g : Line → Line) :
    (s.modLine n g).chansLegal := h

theorem Channel.legal_of_standing {c d : Channel} (h : c.legal) (hs : d.standing = c.standing)
    (hq : d.queue.length ≤ Config.maxQueue) : d.legal := by
  obtain ⟨hcredit, hpass, -, hzero⟩ := h
  obtain ⟨estate, ecredit, epass⟩ : d.state = c.state ∧ d.credit = c.credit ∧ d.pass = c.pass := by
    simpa only [Channel.standing, Prod.mk.injEq] using hs
  refine ⟨ecredit ▸ hcredit, epass ▸ hpass, hq, fun hn => ?_⟩
  rw [ecredit, epass]
  exact hzero (estate ▸ hn)

theorem Floor.chansLegal_congr {f g : Floor} (h : f.chansLegal) (hc : g.chans = f.chans) :
    g.chansLegal := by
  intro c
  rw [hc]
  exact h c

theorem Floor.chansLegal_withFree {f : Floor} {free : List BufId} (h : f.chansLegal) :
    Floor.chansLegal { f with free := free } := h

theorem Floor.chansLegal.queuesFit {f : Floor} (h : f.chansLegal) : f.queuesFit := fun c =>
  (h c).2.2.1

/-- Legal channels whose queues alone change, within their bound, stay legal. -/
theorem Floor.chansLegal_of_standing {f g : Floor} (h : f.chansLegal)
    (hs : g.standing = f.standing) (hq : g.queuesFit) : g.chansLegal := fun c =>
  Channel.legal_of_standing (h c) (congrFun hs c) (hq c)

theorem Floor.chan_modChan (f : Floor) (c o : ChanIx) (g : Channel → Channel) :
    (f.modChan c g).chans[o] = if o = c then g f.chans[c] else f.chans[o] := by
  rw [Floor.modChan_chans]
  split
  · subst o
    exact upd_get_self ..
  · exact upd_get_ne _ _ _ _ ‹_›

theorem Floor.chansLegal_modChan {f : Floor} {c : ChanIx} {g : Channel → Channel}
    (h : f.chansLegal) (hg : (g f.chans[c]).legal) : (f.modChan c g).chansLegal := by
  intro o
  rw [Floor.chan_modChan]
  split
  · exact hg
  · exact h o

/-- Every channel changed alike. -/
theorem Floor.chansLegal_ofFn {f : Floor} {g : Channel → Channel} (h : f.chansLegal)
    (hg : ∀ c : Channel, c.legal → (g c).legal) :
    Floor.chansLegal { f with chans := Vector.ofFn (fun c => g f.chans[c]) } := by
  intro c
  rw [show (Vector.ofFn fun c => g f.chans[c])[c] = g f.chans[c] by simp]
  exact hg _ (h c)

/-! ## Frames forwarded (R14, R41, R43, R139 to R149, R164) -/

section
variable (e : Env) (l : LaneIx) (f : Floor)

theorem Floor.standing_modChan (c : ChanIx) {g : Channel → Channel}
    (hg : ∀ x, (g x).standing = x.standing) : (f.modChan c g).standing = f.standing := by
  funext o
  show ((f.modChan c g).chans[o]).standing = _
  rw [Floor.chan_modChan]
  split
  · subst o
    exact hg _
  · rfl

theorem Floor.standing_of_shed {f g : Floor} (h : Shed f g) : g.standing = f.standing := by
  unfold Floor.standing
  rw [h.chans]

theorem Floor.standing_giveBack (b : BufId) : (f.giveBack b).standing = f.standing := rfl

theorem Floor.standing_handOn (ev : LaneEvent) : (f.handOn e ev).standing = f.standing := by
  unfold Floor.handOn
  split
  · rfl
  · split
    · rw [Floor.standing_giveBack]
      exact f.standing_modChan _ fun _ => rfl
    · exact f.standing_modChan _ fun _ => rfl
    · exact f.standing_modChan _ fun _ => rfl

/-- A processed frame's event joins a queue at most: no channel changes its standing. -/
theorem Floor.standing_process (fr : Frame) (deferred : Bool) :
    (f.process e fr deferred).1.standing = f.standing := by
  obtain ⟨q, hq, ⟨ev, -, hout⟩ | hout⟩ := Floor.process_cases e fr deferred f
  · rw [hout, Floor.standing_handOn, Floor.standing_of_shed hq]
  · rw [hout, Floor.standing_giveBack, Floor.standing_of_shed hq]

theorem Floor.standing_passUpTo (n : Nat) : (f.passUpTo e l n).standing = f.standing := by
  induction n generalizing f with
  | zero => rfl
  | succ n ih =>
    unfold Floor.passUpTo
    split
    · rfl
    · split
      · rw [ih, Floor.standing_process]
        rfl
      · rfl

theorem Floor.standing_pass : (f.pass e l).standing = f.standing := by
  unfold Floor.pass
  dsimp only
  rw [Floor.standing_passUpTo]
  exact Floor.standing_of_shed (.still (Floor.still_insertions _ f))

theorem Floor.standing_processNow (fr : Frame) : (f.processNow e fr).standing = f.standing := by
  unfold Floor.processNow
  dsimp only
  split
  · rw [Floor.standing_pass, Floor.standing_process]
  · exact f.standing_process e fr false

theorem Floor.standing_sweep : (f.sweep e).standing = f.standing := by
  have visit (a : Floor × Option LaneIx) (l : LaneIx) :
      (Floor.visit e a l).1.standing = a.1.standing := by
    unfold Floor.visit
    split
    · rfl
    · exact a.1.standing_pass e l
  have visits := foldl_same (v := fun a : Floor × Option LaneIx => a.1.standing) visit
    (allLanes.map (fun i => f.releasePtr + i)) (f, none)
  unfold Floor.sweep
  revert visits
  generalize (allLanes.map (fun i => f.releasePtr + i)).foldl (Floor.visit e) (f, none) = r
  intro visits
  dsimp only
  split
  · exact visits
  · exact visits

theorem Floor.standing_accept (seq : Seq) (gap : Nat) (lost : Option Nat) :
    (f.accept e l seq gap lost).standing = f.standing := by
  unfold Floor.standing
  rw [Floor.chans_accept]

theorem Floor.standing_wellFormed (seq : Seq) (gap : Nat) (b : BufId) (body : LaneFrame) :
    (f.wellFormed e l seq gap b body).standing = f.standing := by
  unfold Floor.wellFormed
  dsimp only
  split
  · split
    · exact f.standing_accept e l seq gap _
    · rfl
  · split
    · rw [Floor.standing_processNow, Floor.standing_accept]
    · rfl

theorem Floor.standing_intake (raw : RawFrame) (b : BufId) :
    (f.intake e l raw b).standing = f.standing := by
  unfold Floor.intake
  dsimp only
  split
  · rfl
  · split
    · exact (f.touch l).standing_accept e l raw.seq _ _
    · exact (f.touch l).standing_wellFormed e l raw.seq _ b _

end

section
variable {f : Floor} (h : f.chansLegal)
include h

theorem Floor.chansLegal_shed {g : Floor} (hs : Shed f g) : g.chansLegal :=
  Floor.chansLegal_congr h hs.chans

theorem Floor.chansLegal_pass (e : Env) (l : LaneIx) : (f.pass e l).chansLegal :=
  Floor.chansLegal_of_standing h (f.standing_pass e l) (Floor.queuesFit_pass e l h.queuesFit)

theorem Floor.chansLegal_sweep (e : Env) : (f.sweep e).chansLegal :=
  Floor.chansLegal_of_standing h (f.standing_sweep e) (Floor.queuesFit_sweep e h.queuesFit)

theorem Floor.chansLegal_intake (e : Env) (l : LaneIx) (raw : RawFrame) (b : BufId) :
    (f.intake e l raw b).chansLegal :=
  Floor.chansLegal_of_standing h (f.standing_intake e l raw b)
    (Floor.queuesFit_intake e l raw b h.queuesFit)

/-- The end of trouble may start a deferred pass (R130). -/
theorem Floor.chansLegal_troubleChanged (e : Env) (l : LaneIx) (was is : Bool) :
    (f.troubleChanged e l was is).chansLegal := by
  have raised (r : Reason) (detail : Option Detail) : (f.raise e l r detail none).chansLegal :=
    Floor.chansLegal_shed h (Shed.raise e l r detail none f)
  have passed {g : Floor} (hg : g.chansLegal) : ((g.resolve l .link).pass e l).chansLegal :=
    Floor.chansLegal_pass (Floor.chansLegal_shed hg (Shed.resolve l .link g)) e l
  unfold Floor.troubleChanged
  dsimp only
  split
  · split
    · exact h
    · exact raised _ _
  · split
    · split <;> split
      · exact passed (raised _ _)
      · exact passed h
      · exact raised _ _
      · exact h
    · exact h

end

/-! ## The end of an event (R165 to R167) -/

/-- A channel's record after a choice: the chosen one pays a credit and its pass count begins again, another
that was eligible is passed once more, up to 8 (R166, R167). -/
theorem takeChan_entry (chans : Vector Channel 3) (c i : ChanIx) :
    (takeChan chans c)[i] =
      if i = c then { chans[i] with credit := chans[i].credit - 1, pass := 0 }
      else if chans[i].eligible then
        { chans[i] with pass := min (chans[i].pass + 1) Config.maxPass }
      else chans[i] := by
  simp [takeChan]

theorem Channel.opened_of_eligible {c : Channel} (h : c.eligible = true) : c.state = .opened := by
  simp only [Channel.eligible, Bool.and_eq_true, beq_iff_eq] at h
  exact h.1.1

theorem Channel.legal_chosen {c : Channel} (h : c.legal) :
    Channel.legal { c with credit := c.credit - 1, pass := 0 } := by
  obtain ⟨hcredit, -, hqueue, hzero⟩ := h
  refine ⟨Nat.le_trans (Nat.sub_le ..) hcredit, Nat.zero_le _, hqueue, fun hn => ⟨?_, rfl⟩⟩
  exact (congrArg (· - 1) (hzero hn).1 :)

theorem Channel.legal_passed {c : Channel} (h : c.legal) (he : c.eligible = true) :
    Channel.legal { c with pass := min (c.pass + 1) Config.maxPass } := by
  obtain ⟨hcredit, -, hqueue, -⟩ := h
  exact ⟨hcredit, Nat.min_le_right .., hqueue, fun hn => absurd (Channel.opened_of_eligible he) hn⟩

theorem Floor.chansLegal_takeChan {f : Floor} (h : f.chansLegal) (c : ChanIx) :
    Floor.chansLegal { f with chans := takeChan f.chans c } := by
  intro i
  show ((takeChan f.chans c)[i]).legal
  rw [takeChan_entry]
  split
  · exact Channel.legal_chosen (h i)
  · split
    · exact Channel.legal_passed (h i) ‹_›
    · exact h i

section
variable {s : State} (h : s.chansLegal)
include h

theorem State.chansLegal_sendEvent (c : ChanIx) : (s.sendEvent c).chansLegal := by
  unfold State.sendEvent
  split
  · exact h
  · exact Floor.chansLegal_takeChan h c

theorem State.chansLegal_arbiter : s.arbiter.chansLegal := by
  unfold State.arbiter
  split
  · unfold State.choose
    split
    · exact h
    · exact h
    · exact h
    · exact h
    · exact h
    · split
      · exact State.chansLegal_sendEvent h _
      · exact h
  · exact h

theorem State.chansLegal_settle : s.settle.chansLegal :=
  Floor.chansLegal_shed h (.still (Floor.still_settle s.env s.floor))

theorem State.chansLegal_finish : s.finish.chansLegal :=
  State.chansLegal_arbiter (State.chansLegal_settle h)

end

/-! ## Turns begun (R122 to R125, R131, R133, R134) -/

section
variable (s : State) (n : LineIx)

@[simp] theorem State.chans_startTurn (d : DropIx) :
    (s.startTurn n d).floor.chans = s.floor.chans := by
  rw [State.startTurn_eq]
  exact (congrArg Floor.chans (s.claim_floor n) :)

@[simp] theorem State.chans_rotate (k : Nat) : (s.rotate n k).floor.chans = s.floor.chans := by
  induction k generalizing s with
  | zero => rfl
  | succ k ih =>
    unfold State.rotate
    dsimp only
    split
    · exact State.chans_startTurn _ n _
    · split
      · rfl
      · exact ih _

@[simp] theorem State.chans_enterQuiet : (s.enterQuiet n).floor.chans = s.floor.chans := by
  unfold State.enterQuiet
  dsimp only
  split <;> rfl

theorem State.chans_resume (t : State) : (s.resume n t).floor.chans = t.floor.chans := by
  unfold State.resume
  split
  · rfl
  · exact t.chans_rotate n _

/-- An attention round changes no channel, where what follows it when no drop is left changes none. -/
theorem State.chans_attend_getD {t : State} (from_ : Nat) (h : t.floor.chans = s.floor.chans) :
    ((s.attend n from_).getD t).floor.chans = s.floor.chans := by
  unfold State.attend
  split
  · exact h
  · exact State.chans_startTurn _ n _

@[simp] theorem State.chans_nextTurn : (s.nextTurn n).floor.chans = s.floor.chans := by
  have round (from_ : Nat) : ((s.attend n from_).getD (s.resume n
      (s.modLine n (fun x => { x with attention := .inactive })))).floor.chans = s.floor.chans :=
    s.chans_attend_getD n from_ (s.chans_resume n _)
  unfold State.nextTurn
  dsimp only
  split
  · exact s.chans_enterQuiet n
  · split
    · exact s.chans_resume n s
    · exact round 0
    · exact round _

@[simp] theorem State.chans_beginLines : s.beginLines.floor.chans = s.floor.chans :=
  foldl_same (v := fun t : State => t.floor.chans) (fun t n => t.chans_nextTurn n) allLines s

@[simp] theorem State.chans_prepareLine : (s.prepareLine n).floor.chans = s.floor.chans := by
  rw [State.prepareLine_eq]
  refine foldl_same (v := fun t : State => t.floor.chans) (fun t d => ?_) allDrops s
  rw [State.prepareDrop_floor, Floor.modLane_chans]

end

/-! ## Turns ended (R119, R127 to R130) -/

section
variable {s : State} (h : s.chansLegal) (n : LineIx)
include h

theorem State.chansLegal_nextTurn : (s.nextTurn n).chansLegal :=
  Floor.chansLegal_congr h (s.chans_nextTurn n)

theorem State.chansLegal_judgeDrop (d : DropIx) (o : TurnEnd) : (s.judgeDrop n d o).chansLegal := by
  have judged (l : LaneIx) (g : Lane → Lane) (was is : Bool) :
      (((s.floor.modLane l g).touch l).troubleChanged s.env l was is).chansLegal :=
    Floor.chansLegal_troubleChanged (f := (s.floor.modLane l g).touch l) h s.env l was is
  unfold State.judgeDrop
  dsimp only
  split
  · exact judged _ _ _ _
  · exact judged _ _ _ _

theorem State.chansLegal_takeAnswer (u : Turn) (a : GoodAnswer) :
    (s.takeAnswer n u a).chansLegal := by
  unfold State.takeAnswer
  dsimp only
  split
  · exact h
  · split
    · exact Floor.chansLegal_intake (f := s.floor.modLane _ _) h _ _ _ _
    · exact h

theorem State.chansLegal_endTurn : (s.endTurn n).chansLegal :=
  State.chansLegal_arbiter (State.chansLegal_nextTurn
    (State.chansLegal_settle (State.chansLegal_modLine h n _)) n)

theorem State.chansLegal_endDamaged (d : DropIx) : (s.endDamaged n d).chansLegal :=
  State.chansLegal_endTurn (State.chansLegal_judgeDrop h n d .damaged) n

theorem State.chansLegal_breakActive : (s.breakActive n).chansLegal := by
  have broken := State.chansLegal_modLine h n Line.broken
  unfold State.breakActive
  split
  · split
    · exact h
    · exact State.chansLegal_endDamaged broken n _
    · exact State.chansLegal_endDamaged broken n _
  · exact State.chansLegal_arbiter (State.chansLegal_nextTurn broken n)

end

/-! ## Channels changed (R160, R161, R167, R168) -/

theorem Channel.legal_grant {c : Channel} (n : Nat) (h : c.legal) : (c.grant n).legal := by
  obtain ⟨-, hpass, hqueue, hzero⟩ := h
  unfold Channel.grant
  split
  · exact ⟨Nat.zero_le _, hpass, hqueue, fun hn => ⟨rfl, (hzero hn).2⟩⟩
  · exact ⟨Nat.min_le_right .., hpass, hqueue, fun hn => absurd rfl hn⟩

theorem Channel.legal_linkLost {c : Channel} (h : c.legal) : c.linkLost.legal := by
  unfold Channel.linkLost
  split
  · exact h
  · exact ⟨Nat.zero_le _, Nat.zero_le _, h.2.2.1, fun _ => ⟨rfl, rfl⟩⟩
  · exact ⟨Nat.zero_le _, Nat.zero_le _, h.2.2.1, fun _ => ⟨rfl, rfl⟩⟩

/-- The event at the head of a queue leaves it, and its buffer returns to the free list (R167). -/
theorem Floor.chansLegal_headReturned {f : Floor} {c : ChanIx} {ev : LaneEvent}
    {rest : List LaneEvent} {g : Channel → Channel} (h : f.chansLegal)
    (hq : f.chans[c].queue = ev :: rest) (hg : ∀ x, (g x).standing = x.standing)
    (hrest : ∀ x, (g x).queue = rest) :
    ((f.modChan c g).giveBack ev.frame.buf).chansLegal := by
  have hfit : (ev :: rest).length ≤ Config.maxQueue := hq ▸ h.queuesFit c
  have hhead : (g f.chans[c]).legal := by
    refine Channel.legal_of_standing (h c) (hg _) ?_
    rw [hrest]
    exact Nat.le_of_succ_le hfit
  exact Floor.chansLegal_congr (Floor.chansLegal_modChan h hhead) rfl

section
variable {s : State} (h : s.chansLegal)
include h

theorem State.chansLegal_eventSent (c : ChanIx) : (s.eventSent c).chansLegal := by
  unfold State.eventSent
  split
  · exact State.chansLegal_finish h
  · rename_i ev rest hq
    refine State.chansLegal_finish (State.chansLegal_onFloor (Floor.chansLegal_sweep ?_ s.env))
    exact Floor.chansLegal_headReturned h hq (fun _ => rfl) fun _ => rfl

theorem State.chansLegal_cutShort (m : TxMessage) : (s.cutShort m).chansLegal := by
  unfold State.cutShort
  split
  case h_6 c _ =>
    split
    · rename_i hq
      exact Floor.chansLegal_headReturned h hq (fun _ => rfl) fun _ => rfl
    · exact h
  all_goals exact h

theorem State.chansLegal_goDown : s.goDown.chansLegal := by
  have lost {u : State} (hu : u.chansLegal) : Floor.chansLegal { u.floor with
      chans := Vector.ofFn (fun c => (u.floor.chans[c]).linkLost) } :=
    Floor.chansLegal_ofFn hu fun _ => Channel.legal_linkLost
  unfold State.goDown
  cases s.link.tx with
  | none =>
    dsimp only
    split
    · exact Floor.chansLegal_congr (lost h) rfl
    · exact Floor.chansLegal_congr (lost h) rfl
  | some m =>
    dsimp only
    split
    · exact Floor.chansLegal_congr (lost (State.chansLegal_cutShort h m)) rfl
    · exact Floor.chansLegal_congr (lost (State.chansLegal_cutShort h m)) rfl

theorem State.chansLegal_disableChannel (c : ChanIx) : (s.disableChannel c).chansLegal := by
  unfold State.disableChannel
  dsimp only
  refine State.chansLegal_onFloor (Floor.chansLegal_sweep ?_ _)
  rw [State.flagPart_floor, State.onFloor_floor]
  refine Floor.chansLegal_withFree (Floor.chansLegal_modChan h ?_)
  refine ⟨Nat.zero_le _, Nat.zero_le _, ?_, fun _ => ⟨rfl, rfl⟩⟩
  exact Nat.le_trans (List.length_take_le' _ _) (h.queuesFit c)

end

/-! ## The part reset (R191) -/

theorem State.chansLegal_reset : State.reset.chansLegal := invariantsHoldAtReset.2.1

/-- A part reset puts every channel at its reset values, whatever they were. -/
theorem State.chansLegal_partReset (s : State) (cause : ResetCause) :
    (s.partReset cause).chansLegal :=
  State.chansLegal_arbiter (Floor.chansLegal_congr State.chansLegal_reset (State.chans_beginLines _))

end Sys2Proof.Machine
end

section
/-! PROOFS. Every step keeps the channels legal (R160, R161, R164, R166, R168): the requests that change no
channel, those that do, and the commands by their forms. -/

namespace Sys2Proof.Machine

/-! ## Operations of the floor that change no channel -/

section
variable (e : Env) (l : LaneIx) (f : Floor)

theorem Shed.insertions (p : Params) : Shed f (f.insertions p) := .still (Floor.still_insertions p f)

theorem Shed.removeAll (rs : List Reason) : Shed f (f.removeAll l rs) :=
  .still (Floor.still_removeAll l rs f)

theorem Shed.foldl {α : Type} {g : Floor → α → Floor} (xs : List α) (hg : ∀ f a, Shed f (g f a)) :
    Shed f (xs.foldl g f) :=
  foldl_keeps (P := Shed f) (fun _ a h => h.trans (hg _ a)) xs f (.refl f)

theorem Shed.raiseLink : Shed f (f.raiseLink e l) := by
  unfold Floor.raiseLink
  split
  · exact .raise ..
  · exact .refl f

theorem Shed.closeLane : Shed f (f.closeLane l) := by
  unfold Floor.closeLane
  split
  · exact .enterClosed f l
  · exact .enter ..
  · exact .enter ..
  · exact .refl f
  · exact .refl f
  · exact .refl f

theorem Shed.forceClose (p : Params) : Shed f (f.forceClose p l) := by
  have closed := Shed.closeSession p l f
  unfold Floor.forceClose
  dsimp only
  split
  · exact closed
  · exact closed.trans (.enterClosed _ l)
  · exact closed.trans (.endTxn _ l)
  · exact closed.trans (.endTxn _ l)
  · exact closed.trans ((Shed.endTxn _ l).trans (.enterClosed _ l))
  · exact closed.trans ((Shed.endTxn _ l).trans (.enterClosed _ l))

theorem Shed.resetLane : Shed f (f.resetLane e l) := by
  have ended (g : Floor) : Shed g (if (g.lane l).state.inTxn then (g.endTxn l).1 else g) := by
    split
    · exact .endTxn g l
    · exact .refl g
  have linked (p : Prop) [Decidable p] (g : Floor) :
      Shed g (if p then g.raise e l .link none none else g) := by
    split
    · exact .raise ..
    · exact .refl g
  unfold Floor.resetLane
  dsimp only
  refine Shed.trans ?_ (.modLane_same _ l _ (Lane.deferred_derive true))
  refine Shed.trans ?_ (linked _ _)
  refine Shed.trans ?_ (.insertions _ _)
  refine Shed.trans ?_ (.enter ..)
  refine Shed.trans ?_ (.modLane_same _ l Lane.cleared fun _ => rfl)
  refine Shed.trans ?_ (.freeDeferred _ l)
  refine Shed.trans ?_ (.removeAll l _ _)
  exact (Shed.closeSession e.params l f).trans (ended _)

theorem Shed.closeSessions (p : Params) (held : Floor → LaneIx → Bool) :
    Shed f (f.closeSessions p held) := by
  refine Shed.foldl f allLanes fun g l => ?_
  split
  · exact .closeSession ..
  · exact .refl g

theorem Shed.raiseLevel (n : BadgeNo) (lv : Level) : Shed f (f.raiseLevel n lv) := by
  refine Shed.foldl f allLanes fun g l => ?_
  split
  · exact .modLane_same _ _ _ fun _ => by rfl
  · exact .refl g

theorem Shed.sampleCall (levels : LaneSet) : Shed f (f.sampleCall e levels l) := by
  have sampled (c : CallInput) : Shed f (f.modLane l (fun x => { x with call := c })) :=
    .modLane_same f l _ fun _ => rfl
  unfold Floor.sampleCall
  dsimp only
  split
  · split
    · exact (sampled _).trans (.raise ..)
    · exact sampled _
  · split
    · exact (sampled _).trans (.raise ..)
    · exact sampled _

theorem Shed.bagSettled : Shed f (f.bagSettled e l) := by
  have stopped : Shed f ((f.modLane l (fun x => { x with bagSettle := none })).touch l) :=
    (Shed.modLane_same f l (fun x => { x with bagSettle := none }) fun _ => rfl).trans
      (.lanes rfl rfl)
  unfold Floor.bagSettled
  dsimp only
  split
  · exact stopped.trans (.raise ..)
  · exact stopped

theorem Shed.wentIdle : Shed f (f.wentIdle e l) :=
  (Shed.modLane_same f l (fun x => { x with inactivity := none }) fun _ => rfl).trans (.raise ..)

theorem Shed.sessionExpired (p : Params) : Shed f (f.sessionExpired p l) :=
  (Shed.modLane_same f l (fun x => { x with presence := none }) fun _ => rfl).trans
    ((Shed.closeSession p l _).trans (.lanes rfl rfl))

end

@[simp] theorem Floor.chans_tick (f : Floor) : f.tick.chans = f.chans := by
  unfold Floor.tick
  rfl

/-! ## Requests that change no channel -/

section
variable (s : State)

theorem State.floor_runLoadBegin (bank watch : Byte) (groups : BitVec 16) :
    (s.runLoadBegin bank groups watch).state.floor = s.floor := by
  unfold State.runLoadBegin
  split
  · rfl
  · split
    · rfl
    · split
      · rfl
      · split
        · rfl
        · split <;> rfl

theorem State.floor_runLoadGroups (bank : Byte) (es : List GroupWrite) :
    (s.runLoadGroups bank es).state.floor = s.floor := by
  unfold State.runLoadGroups
  split
  · rfl
  · split
    · rfl
    · split <;> rfl

theorem State.floor_runLoadWatch (bank : Byte) (es : List WatchWrite) :
    (s.runLoadWatch bank es).state.floor = s.floor := by
  unfold State.runLoadWatch
  split
  · rfl
  · split
    · rfl
    · split <;> rfl

theorem State.floor_runLoadEnd (bank : Byte) : (s.runLoadEnd bank).state.floor = s.floor := by
  unfold State.runLoadEnd
  split
  · rfl
  · dsimp only
    split
    · rfl
    · split <;> rfl

theorem State.floor_runLoadAbort (bank : Byte) : (s.runLoadAbort bank).state.floor = s.floor := by
  unfold State.runLoadAbort
  split
  · rfl
  · split <;> rfl

theorem State.floor_runCommit (bank : Byte) : (s.runCommit bank).state.floor = s.floor := by
  unfold State.runCommit
  split
  · rfl
  · split
    · rw [State.state_done, State.setBankState_floor]
      split <;> rfl
    · rfl

theorem State.shed_runBadgeSet (badge : BadgeNo) (level : Byte) :
    Shed s.floor (s.runBadgeSet badge level).state.floor := by
  unfold State.runBadgeSet
  split
  · exact .refl _
  · split
    · split
      · exact .refl _
      · split
        · rw [State.state_done, State.onFloor_floor, State.putBadge_floor]
          exact .closeSessions ..
        · rw [State.state_done, State.onFloor_floor, State.putBadge_floor]
          exact .raiseLevel ..
    · split
      · exact .refl _
      · exact .refl _

theorem State.shed_runBadgeClear (mode : Byte) (badge : BadgeNo) :
    Shed s.floor (s.runBadgeClear mode badge).state.floor := by
  unfold State.runBadgeClear
  split
  · split
    · exact .refl _
    · rw [State.state_done, State.onFloor_floor]
      exact .closeSessions ..
  · rw [State.state_done, State.onFloor_floor]
    exact .closeSessions ..
  · exact .refl _

theorem State.shed_onDesk (g : Desk → Desk) : Shed s.floor (s.onDesk g).floor :=
  .still (s.floor.still_withDesk _)

theorem State.shed_runZoneSet (console : Byte) (lanes : LaneSet) :
    Shed s.floor (s.runZoneSet console lanes).state.floor := by
  unfold State.runZoneSet
  split
  · exact .refl _
  · rw [State.state_done, State.onDesk_floor]
    exact .still (s.floor.still_withDesk _)

theorem State.shed_runLaneOpen (lane : Byte) : Shed s.floor (s.runLaneOpen lane).state.floor := by
  unfold State.runLaneOpen
  split
  · exact .refl _
  · split
    · split
      · exact .refl _
      · exact (Shed.enter ..).trans (.raiseLink ..)
    · exact .enter ..
    · exact .enter ..
    · exact .refl _
    · exact .refl _
    · exact .refl _

theorem State.shed_runLaneClose (lane force : Byte) :
    Shed s.floor (s.runLaneClose lane force).state.floor := by
  unfold State.runLaneClose
  split
  · exact .closeLane ..
  · exact .forceClose ..
  · exact .refl _

theorem State.shed_runLaneReset (lane : Byte) : Shed s.floor (s.runLaneReset lane).state.floor := by
  unfold State.runLaneReset
  split
  · exact .refl _
  · exact .resetLane ..

theorem State.shed_runInputSet (lane enable edge : Byte) :
    Shed s.floor (s.runInputSet lane enable edge).state.floor := by
  unfold State.runInputSet
  split
  · rw [State.state_done, State.onFloor_floor]
    exact .modLane_same _ _ _ fun _ => by rfl
  · exact .refl _

theorem State.chans_runLineQuiet (line : Byte) :
    (s.runLineQuiet line).state.floor.chans = s.floor.chans := by
  unfold State.runLineQuiet
  split
  · rfl
  · dsimp only
    split
    · rfl
    · rfl
    · split
      · rfl
      · split
        · rfl
        · split
          · exact s.chans_enterQuiet _
          · rfl

theorem State.floor_runLineWake (line : Byte) : (s.runLineWake line).state.floor = s.floor := by
  unfold State.runLineWake
  split <;> rfl

theorem State.shed_runConsoleOn (console : Byte) :
    Shed s.floor (s.runConsoleOn console).state.floor := by
  unfold State.runConsoleOn
  split
  · exact .refl _
  · split
    · rw [State.state_done]
      exact s.shed_onDesk _
    · exact .refl _
    · exact .refl _
    · exact .refl _

theorem State.shed_runConsoleOff (console : Byte) :
    Shed s.floor (s.runConsoleOff console).state.floor := by
  unfold State.runConsoleOff
  split
  · exact .refl _
  · split
    · exact .refl _
    · rw [State.state_done]
      exact s.shed_onDesk _
    · rw [State.state_done]
      exact s.shed_onDesk _
    · rw [State.state_done]
      exact s.shed_onDesk _

/-- A request about a record keeps what its rule keeps; where R66 refuses it, it changes nothing. -/
theorem State.withRecord_keeps {P : State → Prop} {s : State} {console slot issue : Byte}
    {run : ConsoleIx → SlotIx → Record → Executed} (h : P s)
    (hrun : ∀ c k r, P (run c k r).state) : P (s.withRecord console slot issue run).state := by
  unfold State.withRecord
  split
  · split
    · exact hrun _ _ _
    · exact h
  · exact h

theorem State.shed_runClaim (console slot issue : Byte) :
    Shed s.floor (s.runClaim console slot issue).state.floor := by
  refine State.withRecord_keeps (P := fun t => Shed s.floor t.floor) (.refl _) fun c k r => ?_
  split
  case h_3 | h_4 =>
    split
    · exact .refl _
    · exact .refl _
    · exact s.shed_onDesk _
    · exact s.shed_onDesk _
  all_goals exact .refl _

theorem State.shed_runDecline (console slot issue : Byte) :
    Shed s.floor (s.runDecline console slot issue).state.floor := by
  refine State.withRecord_keeps (P := fun t => Shed s.floor t.floor) (.refl _) fun c k r => ?_
  split
  case h_1 =>
    split
    · exact s.shed_onDesk _
    · exact .refl _
  all_goals exact .refl _

theorem State.shed_runRelease (console slot issue : Byte) :
    Shed s.floor (s.runRelease console slot issue).state.floor := by
  refine State.withRecord_keeps (P := fun t => Shed s.floor t.floor) (.refl _) fun c k r => ?_
  split
  · exact s.shed_onDesk _
  · exact .refl _

theorem State.floor_answerRead (results : Option (List Byte)) :
    (s.answerRead results).state.floor = s.floor := by
  cases results <;> rfl

theorem State.floor_runSetParam (param : Byte) (value : BitVec 24) :
    (s.runSetParam param value).state.floor = s.floor := by
  unfold State.runSetParam
  split <;> rfl

end

/-! ## Requests that change channels (R71, R160 to R162, R186) -/

section
variable {s : State} (h : s.chansLegal)
include h

theorem State.chansLegal_runCredit (channel count : Byte) :
    (s.runCredit channel count).state.chansLegal := by
  unfold State.runCredit
  split
  · exact h
  · rename_i c _
    split
    · exact h
    · split
      · exact h
      · have granted : (s.floor.modChan c (Channel.grant count.toNat)).chansLegal :=
          Floor.chansLegal_modChan h (Channel.legal_grant _ (h c))
        dsimp only [State.done]
        split
        · exact granted
        · exact granted

theorem State.chansLegal_runChannelSet (channel enable : Byte) :
    (s.runChannelSet channel enable).state.chansLegal := by
  unfold State.runChannelSet
  split
  · rename_i c _ _ _
    split
    · rename_i hdisabled _
      have hpass : s.floor.chans[c].pass = 0 := ((h c).2.2.2 (by rw [hdisabled]; nofun)).2
      refine Floor.chansLegal_congr (Floor.chansLegal_modChan h ?_) rfl
      exact ⟨Nat.zero_le _, (h c).2.1, (h c).2.2.1, fun _ => ⟨rfl, hpass⟩⟩
    · exact h
    · exact h
    · exact h
    · exact State.chansLegal_disableChannel h c
    · exact State.chansLegal_disableChannel h c
  · exact h

theorem State.chansLegal_runMapSet (kind channel : Byte) :
    (s.runMapSet kind channel).state.chansLegal := by
  unfold State.runMapSet
  split
  · exact State.chansLegal_onFloor (Floor.chansLegal_sweep h _)
  · exact h

theorem State.chansLegal_runResolve (console slot issue action : Byte) :
    (s.runResolve console slot issue action).state.chansLegal := by
  have cleared (l : LaneIx) (r : Reason) : (s.floor.clearRemotely s.env l r).chansLegal := by
    have resolved : ((s.floor.modLane l (Lane.clearedRemotely r)).resolve l r).chansLegal :=
      Floor.chansLegal_shed (f := s.floor.modLane l (Lane.clearedRemotely r)) h (.resolve ..)
    unfold Floor.clearRemotely
    dsimp only
    split
    · exact Floor.chansLegal_pass resolved _ _
    · exact resolved
  unfold State.runResolve
  split
  · exact h
  · refine State.withRecord_keeps h fun c k r => ?_
    split
    · exact h
    · split
      · exact h
      · split
        · exact h
        · split
          · exact h
          · exact cleared _ _

theorem State.chansLegal_runReadCounters (group clear : Byte) :
    (s.runReadCounters group clear).state.chansLegal := by
  have wiped (g : CounterGroup) : (s.clearCounters g).chansLegal := by
    cases g with
    | lane l => exact h
    | line n => exact h
    | part =>
      exact Floor.chansLegal_congr
        (Floor.chansLegal_ofFn (g := fun c => { c with sent := 0, discarded := 0 }) h fun _ hc => hc) rfl
  unfold State.runReadCounters
  split
  · dsimp only
    split
    · exact wiped _
    · exact h
  · exact h

end

/-! ## The forms of commands -/

/-- The next state of an outcome, where it has one, is as `P` says. -/
def NextIs (P : State → Prop) (o : Host.Outcome State Fault Refusal) : Prop := ∀ t, o = .next t → P t

theorem nextIs_next {P : State → Prop} {t : State} (h : P t) : NextIs P (.next t) := by
  rintro _ ⟨⟩
  exact h

section
variable {P : State → Prop} {s : State} (h : P s)
include h

theorem nextIs_whenRunning {f : State → State} (hf : P (f s)) : NextIs P (whenRunning s f) := by
  refine nextIs_next ?_
  split
  · exact h
  · exact hf

theorem nextIs_whenUp {f : State → State} (hf : P (f s)) : NextIs P (whenUp s f) := by
  refine nextIs_whenRunning h ?_
  split
  · exact hf
  · exact h

theorem nextIs_whenDue {due : State → Bool} {f : State → State} (hf : P (f s).finish) :
    NextIs P (whenDue due s f) := by
  refine nextIs_whenRunning h ?_
  split
  · exact hf
  · exact h

theorem nextIs_whenPhase {n : LineIx} {ph : Phase} {f : Turn → State → State}
    (hf : ∀ u, P (f u s)) : NextIs P (whenPhase n ph s f) := by
  refine nextIs_whenRunning h ?_
  split
  · exact hf _
  · exact h

/-- A request is not received, discarded, lost, or executed (R157, R179, R180). -/
theorem nextIs_request {kind : BitVec 6} {tag : Byte} {run : State → Executed} (hhunt : P s.hunt)
    (hlost : P s.hunt.loseRequest.arbiter) (hrun : P ((run s.hunt).respond kind tag).finish) :
    NextIs P (request kind tag run s) := by
  refine nextIs_whenRunning h ?_
  unfold State.take
  split
  · exact h
  · split
    · exact hhunt
    · split
      · exact hlost
      · exact hrun

end

@[simp] theorem State.floor_loseRequest (s : State) : s.loseRequest.floor = s.floor := by
  unfold State.loseRequest
  dsimp only
  split <;> rfl

section
variable {s : State} (h : s.chansLegal)
include h

theorem nextChansLegal_request {kind : BitVec 6} {tag : Byte} {run : State → Executed}
    (hrun : (run s.hunt).state.chansLegal) : NextIs State.chansLegal (request kind tag run s) := by
  refine nextIs_request h h (State.chansLegal_arbiter ?_) (State.chansLegal_finish hrun)
  rw [State.chansLegal, State.floor_loseRequest]
  exact h

theorem nextChansLegal_request_congr {kind : BitVec 6} {tag : Byte} {run : State → Executed}
    (hrun : ∀ u, (run u).state.floor.chans = u.floor.chans) :
    NextIs State.chansLegal (request kind tag run s) :=
  nextChansLegal_request h (Floor.chansLegal_congr h (hrun s.hunt))

theorem nextChansLegal_request_floor {kind : BitVec 6} {tag : Byte} {run : State → Executed}
    (hrun : ∀ u, (run u).state.floor = u.floor) : NextIs State.chansLegal (request kind tag run s) :=
  nextChansLegal_request_congr h fun u => congrArg Floor.chans (hrun u)

theorem nextChansLegal_request_shed {kind : BitVec 6} {tag : Byte} {run : State → Executed}
    (hrun : ∀ u, Shed u.floor (run u).state.floor) :
    NextIs State.chansLegal (request kind tag run s) :=
  nextChansLegal_request_congr h fun u => (hrun u).chans

/-- An expiry that changes the floor but no channel. -/
theorem nextChansLegal_whenDue_onFloor {due : State → Bool} {g : State → Floor → Floor}
    (hg : Shed s.floor (g s s.floor)) :
    NextIs State.chansLegal (whenDue due s fun s => s.onFloor (g s)) :=
  nextIs_whenDue h (State.chansLegal_finish (Floor.chansLegal_shed h hg))

/-- An expiry that changes the desk alone. -/
theorem nextChansLegal_whenDue_onDesk {due : State → Bool} {g : State → Desk → Desk} :
    NextIs State.chansLegal (whenDue due s fun s => s.onDesk (g s)) :=
  nextIs_whenDue h (State.chansLegal_finish (Floor.chansLegal_shed h (s.shed_onDesk _)))

/-! ## Expiries (R25, R27, R47, R57, R65, R72, R87) -/

theorem nextChansLegal_bagSettleExpiry (l : LaneIx) :
    NextIs State.chansLegal (execBagSettleExpiry l s) := by
  refine nextChansLegal_whenDue_onFloor h ?_
  exact .bagSettled ..

theorem nextChansLegal_inactivityExpiry (l : LaneIx) :
    NextIs State.chansLegal (execInactivityExpiry l s) := by
  refine nextChansLegal_whenDue_onFloor h ?_
  exact .wentIdle ..

theorem nextChansLegal_presenceExpiry (l : LaneIx) :
    NextIs State.chansLegal (execPresenceExpiry l s) := by
  refine nextChansLegal_whenDue_onFloor h ?_
  exact .sessionExpired ..

theorem nextChansLegal_refusalMessageExpiry (l : LaneIx) :
    NextIs State.chansLegal (execRefusalMessageExpiry l s) := by
  refine nextChansLegal_whenDue_onFloor h ?_
  exact (Shed.modLane_same _ l (fun x => { x with refusal := none, refusalTimer := none })
    fun _ => rfl).trans (.lanes rfl rfl)

theorem nextChansLegal_escalationExpiry (k : SlotIx) :
    NextIs State.chansLegal (execEscalationExpiry k s) := nextChansLegal_whenDue_onDesk h

theorem nextChansLegal_offerExpiry (k : SlotIx) :
    NextIs State.chansLegal (execOfferExpiry k s) := nextChansLegal_whenDue_onDesk h

theorem nextChansLegal_claimExpiry (k : SlotIx) :
    NextIs State.chansLegal (execClaimExpiry k s) := nextChansLegal_whenDue_onDesk h

/-! ## Commands that change no channel -/

theorem nextChansLegal_tick (linkOk : Bool) : NextIs State.chansLegal (execTick linkOk s) :=
  nextIs_whenRunning h (Floor.chansLegal_congr h s.floor.chans_tick)

theorem nextChansLegal_startCharacter : NextIs State.chansLegal (execStartCharacter s) :=
  nextIs_whenUp h (by exact h)

theorem nextChansLegal_badLength : NextIs State.chansLegal (execBadLength s) :=
  nextIs_whenUp h (by exact h)

theorem nextChansLegal_badCheck : NextIs State.chansLegal (execBadCheck s) :=
  nextIs_whenUp h (by exact h)

theorem nextChansLegal_wrongChannel : NextIs State.chansLegal (execWrongChannel s) :=
  nextIs_whenUp h (by exact h)

theorem nextChansLegal_pollEnd (n : LineIx) : NextIs State.chansLegal (execPollEnd n s) :=
  nextIs_whenPhase h fun _ => by exact h

theorem nextChansLegal_answerStart (n : LineIx) : NextIs State.chansLegal (execAnswerStart n s) :=
  nextIs_whenPhase h fun _ => by exact h

/-! ## The ends of turns (R126, R129) -/

theorem nextChansLegal_miss (n : LineIx) : NextIs State.chansLegal (execMiss n s) :=
  nextIs_whenPhase h fun u =>
    State.chansLegal_endTurn (State.chansLegal_judgeDrop h n u.drop .miss) n

theorem nextChansLegal_damagedAnswer (n : LineIx) :
    NextIs State.chansLegal (execDamagedAnswer n s) :=
  nextIs_whenPhase h fun u => State.chansLegal_endDamaged h n u.drop

theorem nextChansLegal_answerTruncated (n : LineIx) :
    NextIs State.chansLegal (execAnswerTruncated n s) :=
  nextIs_whenPhase h fun u => State.chansLegal_endDamaged h n u.drop

/-! ## Commands with cases of their own -/

theorem nextChansLegal_resetPinLow : NextIs State.chansLegal (execResetPinLow s) := by
  refine nextIs_whenRunning h (Floor.chansLegal_congr h ?_)
  exact foldl_same (v := fun t : State => t.floor.chans) (fun _ _ => rfl) allLines s

theorem nextChansLegal_resetPinHigh : NextIs State.chansLegal (execResetPinHigh s) := by
  refine nextIs_next ?_
  split
  · exact h
  · exact State.chansLegal_partReset _ _

theorem nextChansLegal_linkDown : NextIs State.chansLegal (execLinkDown s) := by
  refine nextIs_whenRunning h ?_
  split
  · dsimp only
    split
    · exact State.chansLegal_partReset _ _
    · exact State.chansLegal_finish (State.chansLegal_goDown h)
  · exact h

theorem nextChansLegal_linkUp : NextIs State.chansLegal (execLinkUp s) := by
  refine nextIs_whenRunning h ?_
  split
  · exact State.chansLegal_arbiter h
  · exact h

theorem nextChansLegal_callInputSample (levels : LaneSet) :
    NextIs State.chansLegal (execCallInputSample levels s) := by
  refine nextIs_whenRunning h (State.chansLegal_finish (State.chansLegal_onFloor ?_))
  exact Floor.chansLegal_shed h
    (.foldl s.floor allLanes fun f l => .sampleCall s.env l f levels)

theorem nextChansLegal_skippedCharacter : NextIs State.chansLegal (execSkippedCharacter s) := by
  refine nextIs_whenUp h ?_
  split
  · exact h
  · exact h

theorem nextChansLegal_truncated : NextIs State.chansLegal (execTruncated s) := by
  refine nextIs_whenUp h ?_
  split
  · exact h
  · split
    · exact h
    · exact h

theorem nextChansLegal_lostRequest : NextIs State.chansLegal (execLostRequest s) := by
  refine nextIs_whenUp h ?_
  split
  · exact h
  · split
    · exact State.chansLegal_arbiter (Floor.chansLegal_congr h (by simp))
    · exact h

theorem nextChansLegal_unknownRequest (tag : Byte) (kind : BitVec 6) (content : List Byte) :
    NextIs State.chansLegal (execUnknownRequest tag kind content s) := by
  unfold execUnknownRequest
  split
  · exact nextIs_next h
  · exact nextChansLegal_request h h

theorem nextChansLegal_messageComplete : NextIs State.chansLegal (execMessageComplete s) := by
  have idle : s.idleTx.finish.chansLegal := State.chansLegal_finish h
  refine nextIs_whenRunning h ?_
  split
  · exact idle
  · exact idle
  · exact idle
  · exact idle
  · exact h
  · exact h
  · exact h

theorem nextChansLegal_responseComplete : NextIs State.chansLegal (execResponseComplete s) := by
  have sent : s.responseSent.chansLegal := by
    unfold State.responseSent
    dsimp only
    split
    · exact State.chansLegal_partReset _ _
    · exact State.chansLegal_finish h
  refine nextIs_whenRunning h ?_
  split
  case h_1 => exact sent
  all_goals exact h

theorem nextChansLegal_laneEventComplete : NextIs State.chansLegal (execLaneEventComplete s) := by
  refine nextIs_whenRunning h ?_
  split
  case h_1 => exact State.chansLegal_eventSent h _
  all_goals exact h

theorem nextChansLegal_wakeSettleExpiry (n : LineIx) :
    NextIs State.chansLegal (execWakeSettleExpiry n s) := by
  have prepared : (s.prepareLine n).chansLegal :=
    Floor.chansLegal_congr h (s.chans_prepareLine n)
  refine nextIs_whenRunning h ?_
  split
  · exact State.chansLegal_arbiter (State.chansLegal_nextTurn
      (State.chansLegal_settle (State.chansLegal_modLine prepared n Line.awake)) n)
  · exact h

theorem nextChansLegal_goodAnswer (n : LineIx) (chars : List RxChar) :
    NextIs State.chansLegal (execGoodAnswer n chars s) := by
  refine nextIs_whenPhase h fun u => ?_
  dsimp only
  refine State.chansLegal_endTurn (State.chansLegal_modLine ?_ n _) n
  split
  · exact State.chansLegal_judgeDrop h _ _ _
  · exact State.chansLegal_takeAnswer (State.chansLegal_judgeDrop h _ _ _) _ _ _

theorem nextChansLegal_lineBreak (n : LineIx) : NextIs State.chansLegal (execLineBreak n s) := by
  refine nextIs_whenRunning h ?_
  split
  · exact State.chansLegal_breakActive h n
  · exact h
  · exact h

theorem nextChansLegal_stray (n : LineIx) (c : RxChar) : NextIs State.chansLegal (execStray n c s) := by
  refine nextIs_whenRunning h ?_
  dsimp only
  split <;> split
  · exact h
  · exact h
  · exact h
  · exact h

theorem nextChansLegal_idleRoundEnd (n : LineIx) : NextIs State.chansLegal (execIdleRoundEnd n s) := by
  refine nextIs_whenRunning h ?_
  split
  · exact State.chansLegal_arbiter
      (State.chansLegal_nextTurn (State.chansLegal_modLine h n _) n)
  · exact h

end

/-- POWER_ON begins from the reset values, whatever the channels were. -/
theorem nextChansLegal_powerOn (resetLow : Bool) (s : State) :
    NextIs State.chansLegal (execPowerOn resetLow s) := by
  refine nextIs_next ?_
  split
  · exact State.chansLegal_reset
  · exact State.chansLegal_arbiter
      (Floor.chansLegal_congr State.chansLegal_reset (State.chans_beginLines _))

/-! ## Every command -/

/-- Every command keeps the channels legal. -/
theorem nextChansLegal_exec (i : Instr) {s : State} (h : s.chansLegal) :
    NextIs State.chansLegal (exec i s) := by
  cases i with
  | powerOn resetLow => exact nextChansLegal_powerOn resetLow s
  | resetPinLow => exact nextChansLegal_resetPinLow h
  | resetPinHigh => exact nextChansLegal_resetPinHigh h
  | tick linkOk => exact nextChansLegal_tick h linkOk
  | linkDown => exact nextChansLegal_linkDown h
  | linkUp => exact nextChansLegal_linkUp h
  | callInputSample levels => exact nextChansLegal_callInputSample h levels
  | startCharacter => exact nextChansLegal_startCharacter h
  | badLength => exact nextChansLegal_badLength h
  | badCheck => exact nextChansLegal_badCheck h
  | wrongChannel => exact nextChansLegal_wrongChannel h
  | skippedCharacter => exact nextChansLegal_skippedCharacter h
  | truncated => exact nextChansLegal_truncated h
  | lostRequest => exact nextChansLegal_lostRequest h
  | unknownRequest tag kind content => exact nextChansLegal_unknownRequest h tag kind content
  | credit _ c n =>
    exact nextChansLegal_request h (State.chansLegal_runCredit (s := s.hunt) h c n)
  | channelSetEnable _ c e =>
    exact nextChansLegal_request h (State.chansLegal_runChannelSet (s := s.hunt) h c e)
  | channelSetDisable _ c =>
    exact nextChansLegal_request h (State.chansLegal_runChannelSet (s := s.hunt) h c 0)
  | mapSet _ k c => exact nextChansLegal_request h (State.chansLegal_runMapSet (s := s.hunt) h k c)
  | loadBegin _ b g w => exact nextChansLegal_request_floor h fun u => u.floor_runLoadBegin b w g
  | loadGroups _ b es => exact nextChansLegal_request_floor h fun u => u.floor_runLoadGroups b es
  | loadWatch _ b es => exact nextChansLegal_request_floor h fun u => u.floor_runLoadWatch b es
  | loadEnd _ b => exact nextChansLegal_request_floor h fun u => u.floor_runLoadEnd b
  | loadAbort _ b => exact nextChansLegal_request_floor h fun u => u.floor_runLoadAbort b
  | commit _ b => exact nextChansLegal_request_floor h fun u => u.floor_runCommit b
  | badgeSet _ n lv => exact nextChansLegal_request_shed h fun u => u.shed_runBadgeSet n lv
  | badgeClear _ m n => exact nextChansLegal_request_shed h fun u => u.shed_runBadgeClear m n
  | badgeClearAll _ n => exact nextChansLegal_request_shed h fun u => u.shed_runBadgeClear 1 n
  | zoneSet _ c ls => exact nextChansLegal_request_shed h fun u => u.shed_runZoneSet c ls
  | laneOpen _ l => exact nextChansLegal_request_shed h fun u => u.shed_runLaneOpen l
  | laneClose _ l f => exact nextChansLegal_request_shed h fun u => u.shed_runLaneClose l f
  | laneCloseForce _ l => exact nextChansLegal_request_shed h fun u => u.shed_runLaneClose l 1
  | laneReset _ l => exact nextChansLegal_request_shed h fun u => u.shed_runLaneReset l
  | inputSet _ l e g => exact nextChansLegal_request_shed h fun u => u.shed_runInputSet l e g
  | lineQuiet _ n => exact nextChansLegal_request_congr h fun u => u.chans_runLineQuiet n
  | lineWake _ n => exact nextChansLegal_request_floor h fun u => u.floor_runLineWake n
  | consoleOn _ c => exact nextChansLegal_request_shed h fun u => u.shed_runConsoleOn c
  | consoleOff _ c => exact nextChansLegal_request_shed h fun u => u.shed_runConsoleOff c
  | claim _ c k i => exact nextChansLegal_request_shed h fun u => u.shed_runClaim c k i
  | decline _ c k i => exact nextChansLegal_request_shed h fun u => u.shed_runDecline c k i
  | release _ c k i => exact nextChansLegal_request_shed h fun u => u.shed_runRelease c k i
  | resolveClear _ c k i a =>
    exact nextChansLegal_request h (State.chansLegal_runResolve (s := s.hunt) h c k i a)
  | resolveRefer _ c k i =>
    exact nextChansLegal_request h (State.chansLegal_runResolve (s := s.hunt) h c k i 1)
  | readLane | readQueue | readStatus =>
    exact nextChansLegal_request_floor h fun u => u.floor_answerRead _
  | readCounters _ g c =>
    exact nextChansLegal_request h (State.chansLegal_runReadCounters (s := s.hunt) h g c)
  | setParam _ p v => exact nextChansLegal_request_floor h fun u => u.floor_runSetParam p v
  | setTime | partReset => exact nextChansLegal_request_floor h fun _ => by rfl
  | messageComplete => exact nextChansLegal_messageComplete h
  | responseComplete => exact nextChansLegal_responseComplete h
  | laneEventComplete => exact nextChansLegal_laneEventComplete h
  | bagSettleExpiry l => exact nextChansLegal_bagSettleExpiry h l
  | inactivityExpiry l => exact nextChansLegal_inactivityExpiry h l
  | presenceExpiry l => exact nextChansLegal_presenceExpiry h l
  | refusalMessageExpiry l => exact nextChansLegal_refusalMessageExpiry h l
  | escalationExpiry k => exact nextChansLegal_escalationExpiry h k
  | offerExpiry k => exact nextChansLegal_offerExpiry h k
  | claimExpiry k => exact nextChansLegal_claimExpiry h k
  | wakeSettleExpiry n => exact nextChansLegal_wakeSettleExpiry h n
  | pollEnd n => exact nextChansLegal_pollEnd h n
  | answerStart n => exact nextChansLegal_answerStart h n
  | miss n => exact nextChansLegal_miss h n
  | damagedAnswer n => exact nextChansLegal_damagedAnswer h n
  | answerTruncated n => exact nextChansLegal_answerTruncated h n
  | goodAnswer n chars => exact nextChansLegal_goodAnswer h n chars
  | lineBreak n => exact nextChansLegal_lineBreak h n
  | stray n c => exact nextChansLegal_stray h n c
  | idleRoundEnd n => exact nextChansLegal_idleRoundEnd h n

/-- Settles O57: the front command keeps the channels legal, command by command. -/
theorem channelInvariantKept : Obligations.ChannelInvariantKept := by
  unfold Obligations.ChannelInvariantKept
  intro s t h ht
  unfold step at ht
  split at ht
  · cases ht
    exact h
  · rename_i c rest _
    exact nextChansLegal_exec c (s := { s with pending := rest }) h t ht

end Sys2Proof.Machine
end

section
/-! PROOFS. LINK_UP and LINK_DOWN where the filter has made them due (R156, R168, R169), and the findings of the
store link receiver (R157, R170). -/

namespace Sys2Proof.Machine

/-! ## Link DOWN and UP (R156, R168, R169) -/

section
variable {s : State}

theorem execLinkUp_due (h : s.held = none) (hd : s.link.due = some true) :
    execLinkUp s = .next (State.arbiter
      { s with link := { s.link with level := some true, due := none, rx := .hunt } }) :=
  (whenRunning_free h _).trans (congrArg _ (if_pos hd))

theorem execLinkUp_notDue (h : s.held = none) (hd : s.link.due ≠ some true) :
    execLinkUp s = .next s :=
  (whenRunning_free h _).trans (congrArg _ (if_neg hd))

theorem State.mgmt_cutShort (s : State) (m : TxMessage) : (s.cutShort m).mgmt = s.mgmt := by
  unfold State.cutShort
  split
  case h_6 => split <;> rfl
  all_goals rfl

/-- Link DOWN frees the response slots and changes nothing else of the management block (R168). -/
theorem State.mgmt_goDown (s : State) : s.goDown.mgmt = { s.mgmt with slots := [] } := by
  unfold State.goDown
  cases s.link.tx with
  | none =>
    dsimp only
    rw [State.onDesk_mgmt]
    split <;> rfl
  | some m =>
    dsimp only
    rw [State.onDesk_mgmt, ← s.mgmt_cutShort m]
    split <;> rfl

/-- LINK_DOWN where it is due: its event ends, unless a PART RESET waits for it (R168, R191). -/
theorem execLinkDown_due (h : s.held = none) (hd : s.link.due = some false) :
    execLinkDown s =
      .next (if s.mgmt.resetPending then s.goDown.partReset .request else s.goDown.finish) := by
  refine (whenRunning_free h _).trans (congrArg _ ((if_pos hd).trans ?_))
  dsimp only
  rw [State.mgmt_goDown]

theorem execLinkDown_notDue (h : s.held = none) (hd : s.link.due ≠ some false) :
    execLinkDown s = .next s :=
  (whenRunning_free h _).trans (congrArg _ (if_neg hd))

end

/-- Settles O8, by whether the change is due and whether a PART RESET is pending. -/
theorem linkChangesTaken : Obligations.LinkChangesTaken := by
  unfold Obligations.LinkChangesTaken
  refine ⟨fun s h hd => execLinkUp_due h hd, fun s h hd => execLinkUp_notDue h hd,
    fun s h hd hp => ?_, fun s h hd => execLinkDown_notDue h hd⟩
  rw [show exec .linkDown s = execLinkDown s from rfl, execLinkDown_due h hd, hp]
  rfl

/-! ## The receiver (R157, R170) -/

theorem request_down {s : State} (hu : s.linkUp = false) (kind : BitVec 6) (tag : Byte)
    (run : State → Executed) : request kind tag run s = .next s := by
  simp only [request, whenRunning, take_down hu, ite_self]

/-- A finding's outcome while the link is DOWN. -/
theorem outcome_down {s t : State} {o : Host.Outcome State Fault Refusal} (hu : s.linkUp = false)
    (ho : o = .next (if s.held.isSome then s else if s.linkUp then t else s)) : o = .next s := by
  rw [ho, hu, if_neg Bool.false_ne_true, ite_self]

/-- While the link is DOWN neither a finding nor a request has an effect (R157). -/
theorem exec_down (c : Instr) {s : State} (hu : s.linkUp = false)
    (hc : c.isFinding = true ∨ c.wire.isSome = true) : exec c s = .next s := by
  cases c with
  | startCharacter | skippedCharacter | badLength | truncated | badCheck | wrongChannel
  | lostRequest => exact outcome_down hu rfl
  | unknownRequest tag kind content =>
    show execUnknownRequest tag kind content s = .next s
    unfold execUnknownRequest
    split
    · rfl
    · exact request_down hu kind tag _
  | credit | channelSetEnable | channelSetDisable | mapSet | loadBegin | loadGroups | loadWatch
  | loadEnd | loadAbort | commit | badgeSet | badgeClear | badgeClearAll | zoneSet | laneOpen
  | laneClose | laneCloseForce | laneReset | inputSet | lineQuiet | lineWake | consoleOn
  | consoleOff | claim | decline | release | resolveClear | resolveRefer | readLane | readQueue
  | readStatus | readCounters | setParam | setTime | partReset => exact request_down hu _ _ _
  | _ => exact absurd hc (by simp [Instr.isFinding, Instr.wire])

section
variable {s : State} (h : s.held = none) (hu : s.linkUp = true)
include h hu

theorem execStartCharacter_up :
    execStartCharacter s = .next { s with link := { s.link with rx := .message 0 } } :=
  whenUp_up h hu _

theorem execBadLength_up :
    execBadLength s = .next { s with
      link := { s.link with rx := .hunt, badLength := bump s.link.badLength } } :=
  whenUp_up h hu _

theorem execBadCheck_up :
    execBadCheck s = .next { s with
      link := { s.link with rx := .hunt, badCheck := bump s.link.badCheck } } :=
  whenUp_up h hu _

theorem execWrongChannel_up :
    execWrongChannel s = .next { s with
      link := { s.link with rx := .hunt, wrongChannel := bump s.link.wrongChannel } } :=
  whenUp_up h hu _

theorem execSkippedCharacter_hunt (hr : s.link.rx = .hunt) :
    execSkippedCharacter s =
      .next { s with link := { s.link with skipped := bump s.link.skipped } } := by
  unfold execSkippedCharacter
  rw [whenUp_up h hu, hr]

theorem execSkippedCharacter_message {t : Nat} (hr : s.link.rx = .message t) :
    execSkippedCharacter s = .next { s with link := { s.link with rx := .message 0 } } := by
  unfold execSkippedCharacter
  rw [whenUp_up h hu, hr]

theorem execTruncated_hunt (hr : s.link.rx = .hunt) : execTruncated s = .next s := by
  unfold execTruncated
  rw [whenUp_up h hu, hr]

theorem execTruncated_message {t : Nat} (hr : s.link.rx = .message t) :
    execTruncated s = .next (if 2 ≤ t then
      { s with link := { s.link with rx := .hunt, truncated := bump s.link.truncated } }
      else s) := by
  unfold execTruncated
  rw [whenUp_up h hu, hr]
  rfl

end

/-- Settles O11: with the link DOWN by `exec_down`, with the link UP by the phase of the receiver. -/
theorem receiverFindings : Obligations.ReceiverFindings := by
  unfold Obligations.ReceiverFindings
  refine ⟨fun c s _ hu hc => exec_down c hu hc, fun s h hu => ⟨execStartCharacter_up h hu,
    fun hr => execSkippedCharacter_hunt h hu hr, fun hr => ?_, execBadLength_up h hu,
    execBadCheck_up h hu, execWrongChannel_up h hu, fun t hr ht => ?_, fun t hr ht => ?_,
    fun hr => execTruncated_hunt h hu hr⟩⟩
  · cases hrx : s.link.rx with
    | hunt => exact absurd hrx hr
    | message t => exact execSkippedCharacter_message h hu hrx
  · exact (execTruncated_message h hu hr).trans (congrArg _ (if_pos ht))
  · exact (execTruncated_message h hu hr).trans (congrArg _ (if_neg (Nat.not_le.2 ht)))

end Sys2Proof.Machine
end

section
/-! PROOFS. TICK: the timers, the LINK_OK filter and the receiver's silence (R156, R157, R172, R174). -/

namespace Sys2Proof.Machine

/-! ## The timers (R174) -/

theorem Floor.tick_frame (f : Floor) :
    f.tick = { f with lanes := f.tick.lanes
                      desk := { f.desk with slots := f.tick.desk.slots } } := by
  unfold Floor.tick
  rfl

theorem Floor.lane_tick (f : Floor) (l : LaneIx) : f.tick.lane l = (f.lane l).tick := by
  simp [Floor.lane, Floor.tick]

theorem Floor.slot_tick (f : Floor) (k : SlotIx) :
    f.tick.desk.slots[k] = (f.desk.slots[k]).tick := by
  simp [Floor.tick]

theorem Floor.issue_tick (f : Floor) (k : SlotIx) :
    f.tick.desk.slots[k].issue = f.desk.slots[k].issue := by
  rw [Floor.slot_tick]
  rfl

theorem Floor.recAt_tick (f : Floor) (k : SlotIx) :
    f.tick.desk.recAt k = (f.desk.recAt k).map Record.tick := by
  unfold Desk.recAt
  rw [Floor.slot_tick]
  rfl

/-! ## The LINK_OK filter (R156, log 7) -/

/-- A sample changes the filter alone. -/
theorem Link.sample_frame (x : Link) (ok : Bool) :
    x.sample ok = { x with prev := some ok, level := (x.sample ok).level, due := (x.sample ok).due } := by
  unfold Link.sample
  dsimp only
  split
  · split <;> rfl
  · rfl

/-- A sample that the one before it does not confirm, or of the filtered level, makes no change due. -/
theorem Link.sample_steady {x : Link} {ok : Bool} (h : x.prev = some ok → x.level = some ok) :
    x.sample ok = { x with prev := some ok } :=
  if_neg fun hc => hc.2 (h hc.1)

/-- From unknown to low nothing but the level changes. -/
theorem Link.sample_firstLow {x : Link} (hp : x.prev = some false) (hl : x.level = none) :
    x.sample false = { x with prev := some false, level := some false } := by
  simp [Link.sample, hp, hl]

/-- Two agreeing samples that differ from the level make a change to them due. -/
theorem Link.sample_change {x : Link} {ok : Bool} (hp : x.prev = some ok)
    (hl : x.level = some (!ok) ∨ x.level = none ∧ ok = true) :
    x.sample ok = { x with prev := some ok, due := some ok } := by
  obtain hl | ⟨hl, rfl⟩ := hl
  · simp [Link.sample, hp, hl]
  · simp [Link.sample, hp, hl]

/-! ## The tick (R172) -/

/-- The state one tick later, with the LINK_OK sample of that tick. -/
def State.ticked (s : State) (ok : Bool) : State :=
  { s with
      floor := s.floor.tick
      lines := Vector.ofFn (fun n => { s.lines[n] with settle := tickTimer (s.lines[n]).settle })
      link := { s.link.sample ok with rx := s.link.rx.tick }
      storeTime := s.storeTime + 1
      prescaler := 0 }

theorem execTick_running {s : State} (h : s.held = none) (ok : Bool) :
    execTick ok s = .next (s.ticked ok) := whenRunning_free h _

theorem State.line_ticked (s : State) (ok : Bool) (n : LineIx) :
    (s.ticked ok).line n = { s.line n with settle := tickTimer (s.line n).settle } := by
  simp [State.line, State.ticked]

theorem State.link_ticked (s : State) (ok : Bool) :
    (s.ticked ok).link = { s.link.sample ok with rx := s.link.rx.tick } := rfl

/-- Settles O7: the timers field by field, the filter by whether two samples agree and differ from the
level. -/
theorem tickCounts : Obligations.TickCounts := by
  unfold Obligations.TickCounts
  intro s ok h
  refine ⟨s.ticked ok, execTick_running h ok, rfl, s.floor.tick_frame, s.floor.lane_tick,
    fun k => ⟨s.floor.issue_tick k, s.floor.recAt_tick k⟩,
    s.line_ticked ok, ?_, fun hp => ?_, fun hl => ?_, fun hp hl => ?_, fun hp hl ho => ?_,
    fun hp hl ho => ?_⟩
  · rw [State.link_ticked, Link.sample_frame]
    rfl
  · rw [State.link_ticked, Link.sample_steady fun e => absurd e hp]
    exact ⟨rfl, rfl⟩
  · rw [State.link_ticked, Link.sample_steady fun _ => hl]
    exact ⟨rfl, rfl⟩
  · rw [State.link_ticked, Link.sample_change hp (.inl hl)]
    exact ⟨rfl, rfl⟩
  · subst ho
    rw [State.link_ticked, Link.sample_change hp (.inr ⟨hl, rfl⟩)]
    exact ⟨hl, rfl⟩
  · subst ho
    rw [State.link_ticked, Link.sample_firstLow hp hl]
    exact ⟨rfl, rfl⟩

end Sys2Proof.Machine
end

section
/-! PROOFS. A pending PART RESET that takes effect, and requests that are discarded, lost or unknown (R179 to
R181, R190, R191). -/

namespace Sys2Proof.Machine

/-! ## A pending PART RESET (R181, R191) -/

/-- The last reserved response leaves, and the pending part reset follows. -/
theorem State.responseSent_last {s : State} (hp : s.mgmt.resetPending = true)
    (hn : s.mgmt.slots.length ≤ 1) :
    s.responseSent = State.partReset
      { s with link := { s.link with tx := none }, mgmt := { s.mgmt with slots := [] } }
      .request := by
  have hempty : s.mgmt.slots.drop 1 = [] := List.drop_eq_nil_of_le hn
  refine (if_pos ⟨hp, hempty⟩).trans ?_
  rw [hempty]
  rfl

/-- A response leaves while others are reserved behind it: its slot is freed, and the event ends. -/
theorem State.responseSent_more {s : State} (hn : 1 < s.mgmt.slots.length) :
    s.responseSent = State.finish
      { s with link := { s.link with tx := none }
               mgmt := { s.mgmt with slots := s.mgmt.slots.drop 1 } } := by
  refine if_neg fun h => ?_
  have hle : s.mgmt.slots.length ≤ 1 := List.drop_eq_nil_iff.1 h.2
  exact absurd hn (Nat.not_lt.2 hle)

/-- Settles O6, by how many responses are reserved, and at a link DOWN by `execLinkDown_due`. -/
theorem partResetTakesEffect : Obligations.PartResetTakesEffect := by
  unfold Obligations.PartResetTakesEffect
  refine ⟨fun s h hp hs => ⟨fun hn => ?_, fun hn => ⟨s.responseSent, ?_, ?_⟩⟩,
    fun s h hp hd => ?_⟩
  · exact (execResponseComplete_sent h hs).trans (congrArg _ (State.responseSent_last hp hn))
  · exact execResponseComplete_sent h hs
  · rw [State.responseSent_more hn, State.mgmt_finish]
  · exact (execLinkDown_due h hd).trans (congrArg _ (if_pos hp))

/-! ## The lost-request counter (R179, R190) -/

/-- The increment of a counter that reaches 65,535 starts at 65,534, or above 65,535 (where no counter is). -/
theorem bump_saturates_iff (c : Counter) :
    bump c = Config.maxCounter ∧ c ≠ Config.maxCounter ↔ 65534 ≤ c ∧ c ≠ 65535 := by
  have natural (n : Nat) : min (n + 1) 65535 = 65535 ∧ n ≠ 65535 ↔ 65534 ≤ n ∧ n ≠ 65535 := by
    omega
  exact natural c

/-- A lost request, as one update of the counter, the saturation flag and the PART notice flag. -/
theorem State.loseRequest_eq (s : State) :
    let saturates := decide (65534 ≤ s.mgmt.lost ∧ s.mgmt.lost ≠ 65535)
    s.loseRequest =
      { s with
          mgmt := { s.mgmt with lost := min (s.mgmt.lost + 1) 65535
                                lostSeen := s.mgmt.lostSeen || saturates }
          notices := { s.notices with
            part := s.notices.part || (saturates && !s.mgmt.lostSeen) } } := by
  unfold State.loseRequest
  simp only [bump_saturates_iff, State.flagPart_if]
  rfl

/-! ## Requests that are not executed (R179, R180) -/

/-- Every well-formed command with a message is a request, taken by `State.take`. -/
theorem exec_request {c : Instr} (hw : c.wire.isSome = true) (hf : c.wellFormed = true) :
    ∃ kind tag run, ∀ s, exec c s = request kind tag run s := by
  cases c with
  | unknownRequest tag kind content =>
    have hnone : (catalogueRequest kind.toNat tag content).isNone = true :=
      (Bool.and_eq_true_iff.1 hf).2
    have hnot : ¬(catalogueRequest kind.toNat tag content).isSome = true := by
      rw [Option.isNone_iff_eq_none.1 hnone]
      exact Bool.false_ne_true
    exact ⟨kind, tag, fun s => s.refuse .badArgument, fun s => if_neg hnot⟩
  | credit | channelSetEnable | channelSetDisable | mapSet | loadBegin | loadGroups | loadWatch
  | loadEnd | loadAbort | commit | badgeSet | badgeClear | badgeClearAll | zoneSet | laneOpen
  | laneClose | laneCloseForce | laneReset | inputSet | lineQuiet | lineWake | consoleOn
  | consoleOff | claim | decline | release | resolveClear | resolveRefer | readLane | readQueue
  | readStatus | readCounters | setParam | setTime | partReset => exact ⟨_, _, _, fun _ => rfl⟩
  | _ => exact absurd hw Bool.false_ne_true

section
variable {s : State} (h : s.held = none) (hu : s.linkUp = true)
include h hu

theorem execLostRequest_up :
    execLostRequest s = .next
      (if s.mgmt.resetPending then s.hunt
      else if Config.maxSlots ≤ s.mgmt.slots.length then s.hunt.loseRequest.arbiter
      else s) :=
  whenUp_up h hu _

/-- LOST_REQUEST and every request are discarded while a PART RESET is pending. -/
theorem exec_discarded {c : Instr}
    (hc : c = .lostRequest ∨ (c.wire.isSome = true ∧ c.wellFormed = true))
    (hp : s.mgmt.resetPending = true) : exec c s = .next s.hunt := by
  obtain rfl | ⟨hw, hf⟩ := hc
  · exact (execLostRequest_up h hu).trans (congrArg _ (if_pos hp))
  · obtain ⟨kind, tag, run, hrun⟩ := exec_request hw hf
    rw [hrun, request, whenRunning_free h, take_resetPending hu hp]

/-- LOST_REQUEST and every request are lost where every response slot is reserved. -/
theorem exec_lost {c : Instr}
    (hc : c = .lostRequest ∨ (c.wire.isSome = true ∧ c.wellFormed = true))
    (hp : s.mgmt.resetPending = false) (hs : Config.maxSlots ≤ s.mgmt.slots.length) :
    exec c s = .next s.hunt.loseRequest.arbiter := by
  have hnot : ¬s.mgmt.resetPending = true := Bool.eq_false_iff.1 hp
  obtain rfl | ⟨hw, hf⟩ := hc
  · exact (execLostRequest_up h hu).trans (congrArg _ ((if_neg hnot).trans (if_pos hs)))
  · obtain ⟨kind, tag, run, hrun⟩ := exec_request hw hf
    rw [hrun, request, whenRunning_free h, take_lost hu hp hs]

/-- LOST_REQUEST where a slot is free is no event of the part (log 10). -/
theorem execLostRequest_slotFree (hp : s.mgmt.resetPending = false)
    (hs : s.mgmt.slots.length < Config.maxSlots) : execLostRequest s = .next s :=
  (execLostRequest_up h hu).trans
    (congrArg _ ((if_neg (Bool.eq_false_iff.1 hp)).trans (if_neg (Nat.not_le.2 hs))))

end

theorem execUnknownRequest_answers {s : State} {tag : Byte} {kind : BitVec 6} {content : List Byte}
    (hk : catalogueRequest kind.toNat tag content = none) (h : s.takesRequests) :
    execUnknownRequest tag kind content s = .next (s.answer kind tag .badArgument) := by
  unfold execUnknownRequest
  rw [hk]
  exact request_refuses h rfl

/-- Settles O12: a request that is not executed is discarded or lost, and an unknown one is refused. -/
theorem requestIntake : Obligations.RequestIntake := by
  unfold Obligations.RequestIntake
  refine fun s h hu => ⟨fun c hc => ⟨fun hp => exec_discarded h hu hc hp, fun hp hs => ?_⟩,
    fun hp hs => execLostRequest_slotFree h hu hp hs,
    fun tag kind content hk ht => execUnknownRequest_answers hk ht⟩
  rw [exec_lost h hu hc hp hs, State.loseRequest_eq]
  rfl

end Sys2Proof.Machine
end

section
/-! PROOFS. READ COUNTERS (R186) and SET PARAM (R187). -/

namespace Sys2Proof.Machine

/-! ## READ COUNTERS (R186) -/

/-- The group character of a counter group (11.2). -/
def CounterGroup.code : CounterGroup → Nat
  | .lane l => l.1
  | .line n => 24 + n.1
  | .part => 28

theorem counterGroup_num {b : Byte} {g : CounterGroup} (h : b.toNat = g.code) :
    counterGroup b = some g := by
  unfold counterGroup
  cases g with
  | lane l =>
    have hl : b.toNat = l.1 := h
    rw [dif_pos (by omega)]
    exact congrArg _ (congrArg _ (Fin.ext hl))
  | line n =>
    have hn : b.toNat = 24 + n.1 := h
    rw [dif_neg (by omega), dif_pos (by omega)]
    exact congrArg _ (congrArg _ (Fin.ext (Nat.sub_eq_of_eq_add' hn)))
  | part =>
    have hp : b.toNat = 28 := h
    rw [dif_neg (by omega), dif_neg (by omega), if_pos hp]

theorem counterGroup_bad {b : Byte} (h : 28 < b.toNat) : counterGroup b = none := by
  unfold counterGroup
  rw [dif_neg (by omega), dif_neg (by omega), if_neg (by omega)]

theorem State.runReadCounters_badArgument (s : State) {group clear : Byte}
    (h : 28 < group.toNat ∨ 1 < clear.toNat) :
    s.runReadCounters group clear = s.refuse .badArgument := by
  unfold State.runReadCounters
  split
  · rename_i g wipe hg hw
    obtain h | h := h
    · simp [counterGroup_bad h] at hg
    · simp [yesNoArg_bad h] at hw
  · rfl

theorem State.runReadCounters_inRange (s : State) {group clear : Byte} {g : CounterGroup}
    {wipe : Bool} (hg : group.toNat = g.code) (hw : clear.toNat = wipe.toNat) :
    s.runReadCounters group clear =
      { state := if wipe then s.clearCounters g else s, outcome := .done
        results := (s.counters g).flatMap num2c } := by
  simp only [State.runReadCounters, counterGroup_num hg, yesNoArg_num hw]

theorem State.counters_hunt (s : State) (g : CounterGroup) : s.hunt.counters g = s.counters g := by
  cases g <;> rfl

theorem State.clearCounters_hunt (s : State) (g : CounterGroup) :
    s.hunt.clearCounters g = (s.clearCounters g).hunt := by
  cases g <;> rfl

section
variable {s : State} {tag group clear : Byte} {g : CounterGroup} (h : s.takesRequests)
  (hg : group.toNat = g.code)
include h hg

theorem execReadCounters_kept (hc : clear = 0) :
    execReadCounters tag group clear s =
      .next (s.answer 28 tag .done ((s.counters g).flatMap num2c)) := by
  subst hc
  refine request_answers h ((s.hunt.runReadCounters_inRange (wipe := false) hg rfl).trans ?_)
  rw [s.counters_hunt]
  rfl

theorem execReadCounters_cleared (hc : clear = 1) :
    execReadCounters tag group clear s =
      .next ((s.clearCounters g).answer 28 tag .done ((s.counters g).flatMap num2c)) := by
  subst hc
  refine request_answers h ((s.hunt.runReadCounters_inRange (wipe := true) hg rfl).trans ?_)
  rw [s.counters_hunt, s.clearCounters_hunt]
  rfl

end

/-- Settles O36: a group is a lane, a line or the part, and its counters are kept or cleared. -/
theorem countersReadAndCleared : Obligations.CountersReadAndCleared := by
  unfold Obligations.CountersReadAndCleared
  refine fun s tag group clear h => ⟨fun hbad => ?_, fun l hl => ?_, fun n hn => ?_, fun hp => ?_⟩
  · exact request_refuses h (s.hunt.runReadCounters_badArgument hbad)
  · exact ⟨execReadCounters_kept (g := .lane l) h hl, execReadCounters_cleared (g := .lane l) h hl⟩
  · exact ⟨execReadCounters_kept (g := .line n) h hn, execReadCounters_cleared (g := .line n) h hn⟩
  · exact ⟨execReadCounters_kept (g := .part) h hp, execReadCounters_cleared (g := .part) h hp⟩

/-! ## SET PARAM (R187) -/

/-- The value of a parameter by its number, 1 to 22 (11.2). -/
def Params.read (p : Params) (n : Nat) : Nat :=
  match n with
  | 1 => p.baseTolerance | 2 => p.toleranceCap | 3 => p.highLimit | 4 => p.bagSettle
  | 5 => p.inactivity | 6 => p.presence | 7 => p.offer | 8 => p.claim | 9 => p.escal0
  | 10 => p.escal1 | 11 => p.escal2 | 22 => p.mask.toNat
  | n => if h : n - 12 < 10 then (p.base[n - 12]).1 else 0

/-- The lowest and the highest value of a parameter (R187). -/
def paramRange (n : Nat) : Nat × Nat :=
  match n with
  | 1 => (0, 500) | 2 => (0, 10000) | 3 => (0, 9999999) | 4 => (10, 600) | 5 => (100, 6000)
  | 6 => (100, 6000) | 7 => (20, 600) | 8 => (300, 9000) | 9 => (50, 6000) | 10 => (50, 6000)
  | 11 => (50, 6000) | 22 => (0, 16777215) | _ => (0, 3)

theorem paramRange_base {n : Nat} (h : 12 ≤ n ∧ n ≤ 21) : paramRange n = (0, 3) := by
  unfold paramRange
  split
  case h_13 => rfl
  all_goals omega

theorem Params.read_base (p : Params) {n : Nat} (h : 12 ≤ n ∧ n ≤ 21) :
    p.read n = (p.base[(⟨n - 12, by omega⟩ : Fin 10)]).1 := by
  unfold Params.read
  split
  case h_13 => exact dif_pos _
  all_goals omega

theorem within_eq_true_iff {lo hi v : Nat} : within lo hi v = true ↔ lo ≤ v ∧ v ≤ hi :=
  decide_eq_true_iff

/-- A parameter is set where its number is 1 to 22 and the value, of 24 bits, is in its range. -/
theorem Params.put_isSome_iff (p : Params) {n v : Nat} (hv : v < 2 ^ 24) :
    (p.put n v).isSome = true ↔
      (1 ≤ n ∧ n ≤ 22) ∧ (paramRange n).1 ≤ v ∧ v ≤ (paramRange n).2 := by
  have hmask : v ≤ 16777215 := by omega
  unfold Params.put
  split
  case h_12 => exact iff_of_true rfl ⟨by decide, Nat.zero_le v, hmask⟩
  case h_13 =>
    by_cases hn : 12 ≤ n ∧ n ≤ 21
    · rw [dif_pos hn, paramRange_base hn, Option.isSome_dite]
      dsimp only
      omega
    · have hout : ¬(1 ≤ n ∧ n ≤ 22) := by grind
      simp [hn, hout]
  all_goals simp [paramRange, within_eq_true_iff]

/-- The 22 parameters in one list, each at its number but the notice mask, number 22, at place 0. -/
def Params.values (p : Params) : List Nat :=
  [p.mask.toNat, p.baseTolerance, p.toleranceCap, p.highLimit, p.bagSettle, p.inactivity, p.presence,
    p.offer, p.claim, p.escal0, p.escal1, p.escal2] ++ p.base.toList.map Fin.val

theorem Params.values_length (p : Params) : p.values.length = 22 := by
  simp [Params.values]

theorem Params.values_read (p : Params) {n : Nat} (hn : 1 ≤ n ∧ n ≤ 22) :
    p.values[n % 22]? = some (p.read n) := by
  by_cases hb : 12 ≤ n ∧ n ≤ 21
  · have hmod : n % 22 = n := Nat.mod_eq_of_lt (by omega)
    rw [hmod, p.read_base hb, Params.values, List.getElem?_append_right hb.1]
    have hlt : n - 12 < 10 := by omega
    simp [hlt]
  · unfold Params.read
    split
    case h_13 => grind
    all_goals rfl

/-- Setting a parameter changes its place in the list alone; the notice mask keeps its three bits
(log 29). -/
theorem Params.values_put {p q : Params} {n v : Nat} (h : p.put n v = some q) :
    q.values = p.values.set (n % 22) (if n = 22 then v % 8 else v) := by
  unfold Params.put at h
  split at h
  case h_12 =>
    obtain rfl := Option.some.inj h
    rfl
  case h_13 =>
    obtain ⟨hn, h⟩ := Option.dite_none_right_eq_some.1 h
    obtain ⟨h3, h⟩ := Option.dite_none_right_eq_some.1 h
    obtain rfl := Option.some.inj h
    have hmod : n % 22 = n := Nat.mod_eq_of_lt (by omega)
    have hne : n ≠ 22 := by omega
    rw [hmod, if_neg hne, Params.values, Params.values, List.set_append_right _ _ hn.1]
    simp [upd, Vector.toList_set, List.map_set]
  all_goals
    obtain ⟨-, h⟩ := Option.ite_none_right_eq_some.1 h
    obtain rfl := Option.some.inj h
    rfl

theorem Params.read_put_self {p q : Params} {n v : Nat} (h : p.put n v = some q)
    (hn : 1 ≤ n ∧ n ≤ 22) : q.read n = if n = 22 then v % 8 else v := by
  have hlt : n % 22 < p.values.length := by rw [p.values_length]; omega
  have hread := q.values_read hn
  rw [Params.values_put h, List.getElem?_set_self hlt] at hread
  exact (Option.some.inj hread).symm

theorem Params.read_put_other {p q : Params} {n m v : Nat} (h : p.put n v = some q)
    (hn : 1 ≤ n ∧ n ≤ 22) (hm : 1 ≤ m ∧ m ≤ 22) (hne : m ≠ n) : q.read m = p.read m := by
  have hplace : n % 22 ≠ m % 22 := by omega
  have hread := q.values_read hm
  rw [Params.values_put h, List.getElem?_set_ne hplace, p.values_read hm] at hread
  exact (Option.some.inj hread).symm

section
variable {s : State} {param : Byte} {value : BitVec 24}

theorem State.runSetParam_badArgument (h : s.params.put param.toNat value.toNat = none) :
    s.runSetParam param value = s.refuse .badArgument := by
  simp only [State.runSetParam, h]

theorem State.runSetParam_inRange {p : Params}
    (h : s.params.put param.toNat value.toNat = some p) :
    s.runSetParam param value = State.done { s with params := p } := by
  simp only [State.runSetParam, h]

end

/-- Settles O37, by whether the parameter can be set (`Params.put_isSome_iff`). -/
theorem paramsSet : Obligations.ParamsSet := by
  unfold Obligations.ParamsSet
  intro read range s tag param value h n v
  have hput := s.params.put_isSome_iff (n := n) value.isLt
  refine ⟨fun hbad => ?_, fun h1 h22 hlo hhi => ?_⟩
  · have hnone : s.params.put n v = none := by
      rw [← Option.not_isSome_iff_eq_none, hput]
      change n = 0 ∨ 22 < n ∨ v < (paramRange n).1 ∨ (paramRange n).2 < v at hbad
      omega
    exact request_refuses h (State.runSetParam_badArgument hnone)
  · obtain ⟨p, hp⟩ := Option.isSome_iff_exists.1 (hput.2 ⟨⟨h1, h22⟩, hlo, hhi⟩)
    exact ⟨p, request_answers h (State.runSetParam_inRange hp), Params.read_put_self hp ⟨h1, h22⟩,
      fun m hm1 hm22 hne => Params.read_put_other hp ⟨h1, h22⟩ ⟨hm1, hm22⟩ hne⟩

end Sys2Proof.Machine
end

section
/-! PROOFS. The queue of commands (logs 1, 2 and 25): a step takes the front command, every command gives a next
state, and no operation of the part touches the queue. -/

namespace Sys2Proof.Machine

/-! ## A step -/

theorem step_front {s : State} {c : Instr} {rest : List Instr} (h : s.pending = c :: rest) :
    step s = exec c { s with pending := rest } := by
  unfold step
  rw [h]

theorem step_idle {s : State} (h : s.pending = []) : step s = .next s := by
  unfold step
  rw [h]

/-- Settles O1, by whether the queue holds a command. -/
theorem stepRunsFrontCommand : Obligations.StepRunsFrontCommand := by
  unfold Obligations.StepRunsFrontCommand
  exact ⟨fun _ _ _ h => step_front h, fun _ h => step_idle h⟩

/-! ## Every command gives a next state (log 25) -/

/-- A command's meaning is a next state by its form; UNKNOWN_REQUEST changes nothing where the kind is of the
catalogue, and else is a request. -/
theorem exec_next (c : Instr) (s : State) : ∃ t, exec c s = .next t := by
  cases c with
  | unknownRequest tag kind content =>
    show ∃ t, execUnknownRequest tag kind content s = .next t
    unfold execUnknownRequest
    split
    · exact ⟨s, rfl⟩
    · exact ⟨_, rfl⟩
  | _ => exact ⟨_, rfl⟩

/-! ## Turns and the end of an event leave the queue alone -/

@[simp] theorem State.pending_arbiter (s : State) : s.arbiter.pending = s.pending := by
  have h := s.settings_arbiter
  simp only [State.settings, Prod.mk.injEq] at h
  obtain ⟨-, -, -, -, -, -, -, -, hpending⟩ := h
  exact hpending

@[simp] theorem State.pending_finish (s : State) : s.finish.pending = s.pending :=
  s.settle.pending_arbiter

@[simp] theorem State.pending_startTurn (s : State) (n : LineIx) (d : DropIx) :
    (s.startTurn n d).pending = s.pending := by
  obtain ⟨-, -, -, -, -, -, hclaim⟩ := s.claim_settings n
  unfold State.startTurn
  dsimp only
  split
  · exact hclaim
  · exact hclaim

@[simp] theorem State.pending_rotate (n : LineIx) (k : Nat) (s : State) :
    (State.rotate n k s).pending = s.pending := by
  induction k generalizing s with
  | zero => rfl
  | succ k ih =>
    unfold State.rotate
    dsimp only
    split
    · exact State.pending_startTurn _ n _
    · split
      · rfl
      · exact ih _

@[simp] theorem State.pending_enterQuiet (s : State) (n : LineIx) :
    (s.enterQuiet n).pending = s.pending := by
  unfold State.enterQuiet
  dsimp only
  split <;> rfl

/-- An attention round leaves the queue alone, where what follows it when no drop is left does. -/
theorem State.pending_attend_getD {s t : State} {n : LineIx} {k : Nat} (h : t.pending = s.pending) :
    ((s.attend n k).getD t).pending = s.pending := by
  unfold State.attend
  split
  · exact h
  · exact State.pending_startTurn _ n _

@[simp] theorem State.pending_nextTurn (s : State) (n : LineIx) :
    (s.nextTurn n).pending = s.pending := by
  have resume (t : State) :
      (if (s.line n).idleWait then t else t.rotate n rotationSpan).pending = t.pending := by
    split
    · rfl
    · exact State.pending_rotate n _ t
  unfold State.nextTurn
  dsimp only
  split
  · exact s.pending_enterQuiet n
  · split
    · exact resume s
    · exact State.pending_attend_getD (resume _)
    · exact State.pending_attend_getD (resume _)

@[simp] theorem State.pending_beginLines (s : State) : s.beginLines.pending = s.pending :=
  foldl_same (v := State.pending) (fun t n => t.pending_nextTurn n) allLines s

/-- A part reset keeps the queue, by the reset values (R191). -/
@[simp] theorem State.pending_partReset (s : State) (cause : ResetCause) :
    (s.partReset cause).pending = s.pending := by
  unfold State.partReset
  rw [State.pending_arbiter, State.pending_beginLines]
  rfl

@[simp] theorem State.pending_prepareLine (s : State) (n : LineIx) :
    (s.prepareLine n).pending = s.pending :=
  foldl_same (v := State.pending) (fun t d => by dsimp only; split <;> rfl) allDrops s

@[simp] theorem State.pending_judgeDrop (s : State) (n : LineIx) (d : DropIx) (o : TurnEnd) :
    (s.judgeDrop n d o).pending = s.pending := by
  unfold State.judgeDrop
  dsimp only
  split <;> rfl

@[simp] theorem State.pending_takeAnswer (s : State) (n : LineIx) (u : Turn) (a : GoodAnswer) :
    (s.takeAnswer n u a).pending = s.pending := by
  unfold State.takeAnswer
  dsimp only
  split
  · rfl
  · split <;> rfl

@[simp] theorem State.pending_endTurn (s : State) (n : LineIx) :
    (s.endTurn n).pending = s.pending := by
  simp [State.endTurn]

@[simp] theorem State.pending_endDamaged (s : State) (n : LineIx) (d : DropIx) :
    (s.endDamaged n d).pending = s.pending := by
  simp [State.endDamaged]

@[simp] theorem State.pending_breakActive (s : State) (n : LineIx) :
    (s.breakActive n).pending = s.pending := by
  unfold State.breakActive
  split
  · split
    · rfl
    · simp
    · simp
  · simp

/-! ## The store link leaves the queue alone -/

@[simp] theorem State.pending_loseRequest (s : State) : s.loseRequest.pending = s.pending := by
  rw [s.loseRequest_eq]

@[simp] theorem State.pending_cutShort (s : State) (m : TxMessage) :
    (s.cutShort m).pending = s.pending := by
  unfold State.cutShort
  split
  case h_6 => split <;> rfl
  all_goals rfl

@[simp] theorem State.pending_goDown (s : State) : s.goDown.pending = s.pending := by
  unfold State.goDown
  dsimp only
  rw [State.onDesk_pending]
  split
  · split <;> exact s.pending_cutShort _
  · split <;> rfl

@[simp] theorem State.pending_responseSent (s : State) : s.responseSent.pending = s.pending := by
  unfold State.responseSent
  dsimp only
  split
  · exact State.pending_partReset _ _
  · exact State.pending_finish _

@[simp] theorem State.pending_eventSent (s : State) (c : ChanIx) :
    (s.eventSent c).pending = s.pending := by
  unfold State.eventSent
  split
  · simp
  · simp

/-! ## The execution of a request leaves the queue alone -/

section
variable (s : State)

theorem State.pending_runCredit (channel count : Byte) :
    (s.runCredit channel count).state.pending = s.pending := by
  unfold State.runCredit
  split
  · rfl
  · split
    · rfl
    · split
      · rfl
      · dsimp only [State.done]
        split <;> rfl

theorem State.pending_runChannelSet (channel enable : Byte) :
    (s.runChannelSet channel enable).state.pending = s.pending := by
  have disabled (c : ChanIx) : (s.disableChannel c).pending = s.pending := by
    rw [s.disableChannel_eq c]
  unfold State.runChannelSet
  split
  · split
    case h_5 | h_6 => exact disabled _
    all_goals rfl
  · rfl

theorem State.pending_runMapSet (kind channel : Byte) :
    (s.runMapSet kind channel).state.pending = s.pending := by
  unfold State.runMapSet
  split
  · exact State.onFloor_pending _ _
  · rfl

theorem State.pending_runLoadBegin (bank watch : Byte) (groups : BitVec 16) :
    (s.runLoadBegin bank groups watch).state.pending = s.pending := by
  unfold State.runLoadBegin
  split
  · rfl
  · split
    · rfl
    · split
      · rfl
      · split
        · rfl
        · split <;> rfl

theorem State.pending_runLoadGroups (bank : Byte) (es : List GroupWrite) :
    (s.runLoadGroups bank es).state.pending = s.pending := by
  unfold State.runLoadGroups
  split
  · rfl
  · split
    · rfl
    · split <;> rfl

theorem State.pending_runLoadWatch (bank : Byte) (es : List WatchWrite) :
    (s.runLoadWatch bank es).state.pending = s.pending := by
  unfold State.runLoadWatch
  split
  · rfl
  · split
    · rfl
    · split <;> rfl

theorem State.pending_runLoadEnd (bank : Byte) :
    (s.runLoadEnd bank).state.pending = s.pending := by
  unfold State.runLoadEnd
  split
  · rfl
  · dsimp only
    split
    · rfl
    · split <;> rfl

theorem State.pending_runLoadAbort (bank : Byte) :
    (s.runLoadAbort bank).state.pending = s.pending := by
  unfold State.runLoadAbort
  split
  · rfl
  · split <;> rfl

theorem State.pending_runCommit (bank : Byte) : (s.runCommit bank).state.pending = s.pending := by
  unfold State.runCommit
  split
  · rfl
  · split
    · rw [State.state_done, State.setBankState_pending]
      split <;> rfl
    · rfl

theorem State.pending_runBadgeSet (badge : BadgeNo) (level : Byte) :
    (s.runBadgeSet badge level).state.pending = s.pending := by
  unfold State.runBadgeSet
  split
  · rfl
  · split
    · split
      · rfl
      · split
        · rw [State.state_done, State.onFloor_pending, State.putBadge_pending]
        · rw [State.state_done, State.onFloor_pending, State.putBadge_pending]
    · split
      · rw [State.state_done, State.putBadge_pending]
      · rfl

theorem State.pending_runBadgeClear (mode : Byte) (badge : BadgeNo) :
    (s.runBadgeClear mode badge).state.pending = s.pending := by
  unfold State.runBadgeClear
  split
  · split
    · rfl
    · rw [State.state_done, State.onFloor_pending]
  · rw [State.state_done, State.onFloor_pending]
  · rfl

theorem State.pending_runZoneSet (console : Byte) (lanes : LaneSet) :
    (s.runZoneSet console lanes).state.pending = s.pending := by
  unfold State.runZoneSet
  split
  · rfl
  · rw [State.state_done, State.onDesk_pending]

theorem State.pending_runLaneOpen (lane : Byte) :
    (s.runLaneOpen lane).state.pending = s.pending := by
  unfold State.runLaneOpen
  split
  · rfl
  · split
    case h_1 => split <;> rfl
    all_goals rfl

theorem State.pending_runLaneClose (lane force : Byte) :
    (s.runLaneClose lane force).state.pending = s.pending := by
  unfold State.runLaneClose
  split <;> rfl

theorem State.pending_runLaneReset (lane : Byte) :
    (s.runLaneReset lane).state.pending = s.pending := by
  unfold State.runLaneReset
  split <;> rfl

theorem State.pending_runInputSet (lane enable edge : Byte) :
    (s.runInputSet lane enable edge).state.pending = s.pending := by
  unfold State.runInputSet
  split <;> rfl

theorem State.pending_runLineQuiet (line : Byte) :
    (s.runLineQuiet line).state.pending = s.pending := by
  unfold State.runLineQuiet
  split
  · rfl
  · dsimp only
    split
    · rfl
    · rfl
    · split
      · rfl
      · split
        · rfl
        · split
          · exact s.pending_enterQuiet _
          · rfl

theorem State.pending_runLineWake (line : Byte) :
    (s.runLineWake line).state.pending = s.pending := by
  unfold State.runLineWake
  split <;> rfl

theorem State.pending_runConsoleOn (console : Byte) :
    (s.runConsoleOn console).state.pending = s.pending := by
  unfold State.runConsoleOn
  split
  · rfl
  · split <;> simp

theorem State.pending_runConsoleOff (console : Byte) :
    (s.runConsoleOff console).state.pending = s.pending := by
  unfold State.runConsoleOff
  split
  · rfl
  · split <;> simp

theorem State.pending_runClaim (console slot issue : Byte) :
    (s.runClaim console slot issue).state.pending = s.pending := by
  refine State.withRecord_keeps (P := fun t => t.pending = s.pending) rfl fun c k r => ?_
  split
  case h_3 | h_4 => split <;> rfl
  all_goals rfl

theorem State.pending_runDecline (console slot issue : Byte) :
    (s.runDecline console slot issue).state.pending = s.pending := by
  refine State.withRecord_keeps (P := fun t => t.pending = s.pending) rfl fun c k r => ?_
  split
  case h_1 => split <;> rfl
  all_goals rfl

theorem State.pending_runRelease (console slot issue : Byte) :
    (s.runRelease console slot issue).state.pending = s.pending := by
  refine State.withRecord_keeps (P := fun t => t.pending = s.pending) rfl fun c k r => ?_
  split <;> rfl

theorem State.pending_runResolve (console slot issue action : Byte) :
    (s.runResolve console slot issue action).state.pending = s.pending := by
  unfold State.runResolve
  split
  · rfl
  · refine State.withRecord_keeps (P := fun t => t.pending = s.pending) rfl fun c k r => ?_
    split
    · rfl
    · split
      · rfl
      · split
        · rfl
        · split <;> rfl

theorem State.pending_answerRead (results : Option (List Byte)) :
    (s.answerRead results).state.pending = s.pending := by
  cases results <;> rfl

theorem State.pending_runReadCounters (group clear : Byte) :
    (s.runReadCounters group clear).state.pending = s.pending := by
  have wiped (g : CounterGroup) : (s.clearCounters g).pending = s.pending := by
    cases g <;> rfl
  unfold State.runReadCounters
  split
  · dsimp only
    split
    · exact wiped _
    · rfl
  · rfl

theorem State.pending_runSetParam (param : Byte) (value : BitVec 24) :
    (s.runSetParam param value).state.pending = s.pending := by
  unfold State.runSetParam
  split <;> rfl

end

/-! ## The forms of commands -/

/-- A state with the queue of commands of `s`. -/
def State.queued (s t : State) : Prop := t.pending = s.pending

/-- The next state of an outcome, where it has one, has the queue of commands of `s`. -/
abbrev NextQueued (s : State) : Host.Outcome State Fault Refusal → Prop := NextIs s.queued

section
variable {s : State}

theorem nextQueued_whenRunning {f : State → State} (hf : (f s).pending = s.pending) :
    NextQueued s (whenRunning s f) :=
  nextIs_whenRunning (P := State.queued s) rfl hf

theorem nextQueued_whenUp {f : State → State} (hf : (f s).pending = s.pending) :
    NextQueued s (whenUp s f) :=
  nextIs_whenUp (P := State.queued s) rfl hf

theorem nextQueued_whenPhase {n : LineIx} {ph : Phase} {f : Turn → State → State}
    (hf : ∀ u, (f u s).pending = s.pending) : NextQueued s (whenPhase n ph s f) :=
  nextIs_whenPhase (P := State.queued s) rfl hf

/-- An expiry that changes the floor alone. -/
theorem nextQueued_whenDue_onFloor {due : State → Bool} {g : State → Floor → Floor} :
    NextQueued s (whenDue due s fun s => s.onFloor (g s)) :=
  nextIs_whenDue (P := State.queued s) rfl (State.pending_finish _)

/-- An expiry that changes the desk alone. -/
theorem nextQueued_whenDue_onDesk {due : State → Bool} {g : State → Desk → Desk} :
    NextQueued s (whenDue due s fun s => s.onDesk (g s)) :=
  nextIs_whenDue (P := State.queued s) rfl (State.pending_finish _)

theorem nextQueued_request {kind : BitVec 6} {tag : Byte} {run : State → Executed}
    (hrun : ∀ u, (run u).state.pending = u.pending) : NextQueued s (request kind tag run s) := by
  refine nextIs_request (P := State.queued s) rfl rfl ?_ ?_
  · show s.hunt.loseRequest.arbiter.pending = s.pending
    rw [State.pending_arbiter, State.pending_loseRequest, State.hunt_pending]
  · exact (State.pending_finish _).trans (hrun s.hunt)

end

/-! ## Commands of a common form -/

section
variable (s : State)

theorem nextQueued_tick (linkOk : Bool) : NextQueued s (execTick linkOk s) :=
  nextQueued_whenRunning rfl

theorem nextQueued_startCharacter : NextQueued s (execStartCharacter s) :=
  nextQueued_whenUp rfl

theorem nextQueued_badLength : NextQueued s (execBadLength s) :=
  nextQueued_whenUp rfl

theorem nextQueued_badCheck : NextQueued s (execBadCheck s) :=
  nextQueued_whenUp rfl

theorem nextQueued_wrongChannel : NextQueued s (execWrongChannel s) :=
  nextQueued_whenUp rfl

theorem nextQueued_bagSettleExpiry (l : LaneIx) : NextQueued s (execBagSettleExpiry l s) :=
  nextQueued_whenDue_onFloor

theorem nextQueued_inactivityExpiry (l : LaneIx) : NextQueued s (execInactivityExpiry l s) :=
  nextQueued_whenDue_onFloor

theorem nextQueued_presenceExpiry (l : LaneIx) : NextQueued s (execPresenceExpiry l s) :=
  nextQueued_whenDue_onFloor

theorem nextQueued_refusalMessageExpiry (l : LaneIx) :
    NextQueued s (execRefusalMessageExpiry l s) :=
  nextQueued_whenDue_onFloor

theorem nextQueued_escalationExpiry (k : SlotIx) : NextQueued s (execEscalationExpiry k s) :=
  nextQueued_whenDue_onDesk

theorem nextQueued_offerExpiry (k : SlotIx) : NextQueued s (execOfferExpiry k s) :=
  nextQueued_whenDue_onDesk

theorem nextQueued_claimExpiry (k : SlotIx) : NextQueued s (execClaimExpiry k s) :=
  nextQueued_whenDue_onDesk

theorem nextQueued_pollEnd (n : LineIx) : NextQueued s (execPollEnd n s) :=
  nextQueued_whenPhase fun _ => rfl

theorem nextQueued_answerStart (n : LineIx) : NextQueued s (execAnswerStart n s) :=
  nextQueued_whenPhase fun _ => rfl

theorem nextQueued_damagedAnswer (n : LineIx) : NextQueued s (execDamagedAnswer n s) :=
  nextQueued_whenPhase fun u => s.pending_endDamaged n u.drop

theorem nextQueued_answerTruncated (n : LineIx) : NextQueued s (execAnswerTruncated n s) :=
  nextQueued_whenPhase fun u => s.pending_endDamaged n u.drop

/-! ## Commands with cases of their own -/

theorem nextQueued_powerOn (resetLow : Bool) : NextQueued s (execPowerOn resetLow s) := by
  refine nextIs_next ?_
  split
  · rfl
  · exact (State.pending_arbiter _).trans (State.pending_beginLines _)

theorem nextQueued_resetPinLow : NextQueued s (execResetPinLow s) :=
  nextQueued_whenRunning (foldl_same (v := State.pending) (fun _ _ => rfl) allLines s)

theorem nextQueued_resetPinHigh : NextQueued s (execResetPinHigh s) := by
  refine nextIs_next ?_
  split
  · rfl
  · exact s.pending_partReset _

theorem nextQueued_linkDown : NextQueued s (execLinkDown s) := by
  refine nextQueued_whenRunning ?_
  split
  · dsimp only
    split
    · rw [State.pending_partReset, State.pending_goDown]
    · rw [State.pending_finish, State.pending_goDown]
  · rfl

theorem nextQueued_linkUp : NextQueued s (execLinkUp s) := by
  refine nextQueued_whenRunning ?_
  split
  · exact State.pending_arbiter _
  · rfl

theorem nextQueued_callInputSample (levels : LaneSet) :
    NextQueued s (execCallInputSample levels s) := by
  refine nextQueued_whenRunning ?_
  rw [State.pending_finish, State.onFloor_pending]

theorem nextQueued_skippedCharacter : NextQueued s (execSkippedCharacter s) := by
  refine nextQueued_whenUp ?_
  split <;> rfl

theorem nextQueued_truncated : NextQueued s (execTruncated s) := by
  refine nextQueued_whenUp ?_
  split
  · rfl
  · split <;> rfl

theorem nextQueued_lostRequest : NextQueued s (execLostRequest s) := by
  refine nextQueued_whenUp ?_
  split
  · rfl
  · split
    · rw [State.pending_arbiter, State.pending_loseRequest, State.hunt_pending]
    · rfl

theorem nextQueued_unknownRequest (tag : Byte) (kind : BitVec 6) (content : List Byte) :
    NextQueued s (execUnknownRequest tag kind content s) := by
  unfold execUnknownRequest
  split
  · exact nextIs_next rfl
  · exact nextQueued_request fun _ => rfl

theorem nextQueued_messageComplete : NextQueued s (execMessageComplete s) := by
  refine nextQueued_whenRunning ?_
  split
  case h_5 | h_6 | h_7 => rfl
  all_goals exact State.pending_finish _

theorem nextQueued_responseComplete : NextQueued s (execResponseComplete s) := by
  refine nextQueued_whenRunning ?_
  split
  case h_1 => exact s.pending_responseSent
  all_goals rfl

theorem nextQueued_laneEventComplete : NextQueued s (execLaneEventComplete s) := by
  refine nextQueued_whenRunning ?_
  split
  case h_1 => exact s.pending_eventSent _
  all_goals rfl

theorem nextQueued_wakeSettleExpiry (n : LineIx) : NextQueued s (execWakeSettleExpiry n s) := by
  refine nextQueued_whenRunning ?_
  split
  · rw [State.pending_arbiter, State.pending_nextTurn, State.settle_pending,
      State.modLine_pending, State.pending_prepareLine]
  · rfl

theorem nextQueued_miss (n : LineIx) : NextQueued s (execMiss n s) := by
  refine nextQueued_whenPhase fun u => ?_
  rw [State.pending_endTurn, State.pending_judgeDrop]

theorem nextQueued_goodAnswer (n : LineIx) (chars : List RxChar) :
    NextQueued s (execGoodAnswer n chars s) := by
  refine nextQueued_whenPhase fun u => ?_
  rw [State.pending_endTurn, State.modLine_pending]
  split
  · exact s.pending_judgeDrop _ _ _
  · rw [State.pending_takeAnswer, State.pending_judgeDrop]

theorem nextQueued_lineBreak (n : LineIx) : NextQueued s (execLineBreak n s) := by
  refine nextQueued_whenRunning ?_
  split
  · exact s.pending_breakActive n
  · rfl
  · rfl

theorem nextQueued_stray (n : LineIx) (c : RxChar) : NextQueued s (execStray n c s) := by
  refine nextQueued_whenRunning ?_
  dsimp only
  split
  · split <;> rfl
  · split <;> rfl

theorem nextQueued_idleRoundEnd (n : LineIx) : NextQueued s (execIdleRoundEnd n s) := by
  refine nextQueued_whenRunning ?_
  split
  · rw [State.pending_arbiter, State.pending_nextTurn, State.modLine_pending]
  · rfl

/-! ## Every command -/

/-- Every command leaves the queue of commands alone (log 1). -/
theorem nextQueued_exec (i : Instr) : NextQueued s (exec i s) := by
  cases i with
  | powerOn resetLow => exact nextQueued_powerOn s resetLow
  | resetPinLow => exact nextQueued_resetPinLow s
  | resetPinHigh => exact nextQueued_resetPinHigh s
  | linkDown => exact nextQueued_linkDown s
  | linkUp => exact nextQueued_linkUp s
  | tick linkOk => exact nextQueued_tick s linkOk
  | callInputSample levels => exact nextQueued_callInputSample s levels
  | startCharacter => exact nextQueued_startCharacter s
  | badLength => exact nextQueued_badLength s
  | badCheck => exact nextQueued_badCheck s
  | wrongChannel => exact nextQueued_wrongChannel s
  | skippedCharacter => exact nextQueued_skippedCharacter s
  | truncated => exact nextQueued_truncated s
  | lostRequest => exact nextQueued_lostRequest s
  | unknownRequest tag kind content => exact nextQueued_unknownRequest s tag kind content
  | credit _ c n => exact nextQueued_request fun u => u.pending_runCredit c n
  | channelSetEnable _ c e => exact nextQueued_request fun u => u.pending_runChannelSet c e
  | channelSetDisable _ c => exact nextQueued_request fun u => u.pending_runChannelSet c 0
  | mapSet _ k c => exact nextQueued_request fun u => u.pending_runMapSet k c
  | loadBegin _ b g w => exact nextQueued_request fun u => u.pending_runLoadBegin b w g
  | loadGroups _ b es => exact nextQueued_request fun u => u.pending_runLoadGroups b es
  | loadWatch _ b es => exact nextQueued_request fun u => u.pending_runLoadWatch b es
  | loadEnd _ b => exact nextQueued_request fun u => u.pending_runLoadEnd b
  | loadAbort _ b => exact nextQueued_request fun u => u.pending_runLoadAbort b
  | commit _ b => exact nextQueued_request fun u => u.pending_runCommit b
  | badgeSet _ n lv => exact nextQueued_request fun u => u.pending_runBadgeSet n lv
  | badgeClear _ m n => exact nextQueued_request fun u => u.pending_runBadgeClear m n
  | badgeClearAll _ n => exact nextQueued_request fun u => u.pending_runBadgeClear 1 n
  | zoneSet _ c ls => exact nextQueued_request fun u => u.pending_runZoneSet c ls
  | laneOpen _ l => exact nextQueued_request fun u => u.pending_runLaneOpen l
  | laneClose _ l f => exact nextQueued_request fun u => u.pending_runLaneClose l f
  | laneCloseForce _ l => exact nextQueued_request fun u => u.pending_runLaneClose l 1
  | laneReset _ l => exact nextQueued_request fun u => u.pending_runLaneReset l
  | inputSet _ l e g => exact nextQueued_request fun u => u.pending_runInputSet l e g
  | lineQuiet _ n => exact nextQueued_request fun u => u.pending_runLineQuiet n
  | lineWake _ n => exact nextQueued_request fun u => u.pending_runLineWake n
  | consoleOn _ c => exact nextQueued_request fun u => u.pending_runConsoleOn c
  | consoleOff _ c => exact nextQueued_request fun u => u.pending_runConsoleOff c
  | claim _ c k i => exact nextQueued_request fun u => u.pending_runClaim c k i
  | decline _ c k i => exact nextQueued_request fun u => u.pending_runDecline c k i
  | release _ c k i => exact nextQueued_request fun u => u.pending_runRelease c k i
  | resolveClear _ c k i a => exact nextQueued_request fun u => u.pending_runResolve c k i a
  | resolveRefer _ c k i => exact nextQueued_request fun u => u.pending_runResolve c k i 1
  | readLane | readQueue | readStatus => exact nextQueued_request fun u => u.pending_answerRead _
  | readCounters _ g c => exact nextQueued_request fun u => u.pending_runReadCounters g c
  | setParam _ p v => exact nextQueued_request fun u => u.pending_runSetParam p v
  | setTime | partReset => exact nextQueued_request fun _ => rfl
  | messageComplete => exact nextQueued_messageComplete s
  | responseComplete => exact nextQueued_responseComplete s
  | laneEventComplete => exact nextQueued_laneEventComplete s
  | bagSettleExpiry l => exact nextQueued_bagSettleExpiry s l
  | inactivityExpiry l => exact nextQueued_inactivityExpiry s l
  | presenceExpiry l => exact nextQueued_presenceExpiry s l
  | refusalMessageExpiry l => exact nextQueued_refusalMessageExpiry s l
  | escalationExpiry k => exact nextQueued_escalationExpiry s k
  | offerExpiry k => exact nextQueued_offerExpiry s k
  | claimExpiry k => exact nextQueued_claimExpiry s k
  | wakeSettleExpiry n => exact nextQueued_wakeSettleExpiry s n
  | pollEnd n => exact nextQueued_pollEnd s n
  | answerStart n => exact nextQueued_answerStart s n
  | miss n => exact nextQueued_miss s n
  | damagedAnswer n => exact nextQueued_damagedAnswer s n
  | answerTruncated n => exact nextQueued_answerTruncated s n
  | goodAnswer n chars => exact nextQueued_goodAnswer s n chars
  | lineBreak n => exact nextQueued_lineBreak s n
  | stray n c => exact nextQueued_stray s n c
  | idleRoundEnd n => exact nextQueued_idleRoundEnd s n

end

/-- Settles O2: a next state by `exec_next`, its queue by `nextQueued_exec`. -/
theorem everyCommandCompletes : Obligations.EveryCommandCompletes := by
  unfold Obligations.EveryCommandCompletes
  intro c s
  obtain ⟨t, ht⟩ := exec_next c s
  exact ⟨t, ht, nextQueued_exec s c t ht⟩

end Sys2Proof.Machine
end
